-- ==== Sys2Proof/Word.lean ====
section
/-! DEFINITION. The two word types of the block: bytes of a burst and 4-bit framebuffer cells (spec 00_scope.md R8, R9). -/

namespace Sys2Proof

/-- A `Byte` of R9, a number in 0..255; bit 0 is the least significant (R8). -/
abbrev Byte := BitVec 8

/-- A `Nibble` (an intensity) of R9, a number in 0..15: the content of a framebuffer cell (R24, R25). -/
abbrev Nibble := BitVec 4

end Sys2Proof
end

