-- ==== Sys2Proof/Syntax.lean ====
section
/-! DEFINITION. The instructions of the block (one constructor per row of spec/opcode_table.json), and the form in
which the host hands a request over (spec 30_encoding.md R80 to R85). -/

namespace Sys2Proof

/-- The level of an output line (R9). -/
inductive Level where
  | low
  | high
  deriving DecidableEq, Repr, Inhabited

/-- The opposite level. -/
def Level.flip : Level → Level
  | .low => .high
  | .high => .low

/-- The two output lines of the transport: `DC` (the source's `DATA_COMMAND`) and `RESET` (R9, R192). -/
inductive Line where
  | dc
  | reset
  deriving DecidableEq, Repr, Inhabited

/-- The operand of `initialize` (R130, R132). -/
inductive VccMode where
  | external
  | switchCap
  deriving DecidableEq, Repr, Inhabited

/-- The ten host operations, named in error records (R170). -/
inductive HostOp where
  | construct
  | reset
  | command
  | sendData
  | initialise
  | setDisplayPower
  | resetAddressWindow
  | setPixel
  | flush
  | updateRegion
  deriving DecidableEq, Repr

/-- The instructions: the ten host operations of R81 with the typed operands of R82, the eight wire opcodes of R91
with the operand bytes of their command burst (R83), and the packed pixel byte of R85.
`initialise` is the table's `initialize`, a word Lean keeps for itself. -/
inductive Instr where
  | construct (busIndex deviceIndex dcLine resetLine rows cols : Nat)
  | reset
  | command (opcode : Int) (operands : List Int)
  | sendData (bytes : List Int)
  | initialise (vccMode : VccMode)
  | setDisplayPower (on : Bool)
  | resetAddressWindow
  | setPixel (x y intensity : Int)
  | flush
  | updateRegion (startX startY : Int) (values : List Int)
  | wire15 (operands : List Byte)
  | wire24 (operands : List Byte)
  | wire75 (operands : List Byte)
  | wire81 (operands : List Byte)
  | wireA4 (operands : List Byte)
  | wireA6 (operands : List Byte)
  | wireAE (operands : List Byte)
  | wireAF (operands : List Byte)
  | pixPair (a b : Nibble)
  deriving DecidableEq, Repr

/-- One operand of a request record as the host writes it (R82, R92): a number, a list in square brackets, a boolean,
a `vccMode`, or `omitted` where the host leaves an operand to its default (R82). -/
inductive Arg where
  | num (v : Int)
  | list (vs : List Int)
  | bool (b : Bool)
  | mode (m : VccMode)
  | omitted
  deriving DecidableEq, Repr

/-- What the host hands to the block: a record `{op, args}` of format HOSTREQ (R81), or one burst of the wire layer
with the D/C level it is to be sent under (formats WIRE_CMD and WIRE_DATA, R83, R84).
DEDUCED (log 2): a burst as a request, so that the wire rows of the opcode table can be handed over too. -/
inductive Request where
  | hostReq (op : BitVec 4) (args : List Arg)
  | wireBurst (dcLevel : Level) (bytes : List Byte)
  deriving DecidableEq, Repr

end Sys2Proof
end

