-- ==== Sys2Proof/Config.lean ====
section
/-! DEFINITION. The parameters of the block (spec 00_scope.md R7) and the free values of what the spec leaves open. -/

namespace Sys2Proof.Config

/-- `COLS`: framebuffer width (R7). -/
abbrev cols : Nat := 128
/-- `ROWS`: framebuffer height, and the number of bursts of a flush (R7, D8). -/
abbrev rows : Nat := 64
/-- `PACKED_COLS = COLS/2` (R7). -/
abbrev packedCols : Nat := 64
/-- `RESET_PULSE_MS`: the argument of the delay inside `reset` (R7, R112). -/
abbrev resetPulseMs : Nat := 10
/-- `PRE_RESET_MS`: the argument of the delay at the start of `initialize` (R7, R130). -/
abbrev preResetMs : Nat := 1
/-- `WIN_LO`: lower bound of the address window (R7). -/
abbrev winLo : Byte := 0x00
/-- `WIN_HI`: upper bound of the address window (R7). -/
abbrev winHi : Byte := 0x3F

/-- An (opcode, operand list) pair, sent by one `command` call (R135). -/
abbrev Entry := Byte × List Byte

/-- A bring-up table of R135: a finite list of entries that is not empty, by construction. -/
structure InitTable where
  first : Entry
  rest  : List Entry
  deriving DecidableEq, Repr, Inhabited

/-- The entries in order. -/
def InitTable.entries (t : InitTable) : List Entry := t.first :: t.rest

/-- What a store of an intensity outside 0..15 does (R7, R142). -/
inductive IntensityPolicy where
  | mask
  | reject
  deriving DecidableEq, Repr, Inhabited

/-- The default `WINDOW_RESET_SEQ`: column window, then row window, each `[start, end]` (R7, R87, R134). -/
def defaultWindowResetSeq : List Entry := [(0x15, [winLo, winHi]), (0x75, [winLo, winHi])]

/-- FREE VALUE, DESIGN CHOICE (log 8): `INIT_TABLE` is OPEN (R7, R131, N1), so right after reset it is this constant
without a body. -/
opaque initTable : VccMode → InitTable

/-- FREE VALUE (log 10): whether the line of the n-th draw took the requested level although its `T.setLine` failed;
R11 says only that the latch is "one of {old LATCH[l], v}". -/
opaque failedLineMoved : Nat → Bool

/-- FREE VALUE (log 11): which of several offending values the n-th draw records; R120 and R121 say only
"offending value". -/
opaque offenderDraw : Nat → Nat

end Sys2Proof.Config
end

