-- ==== Sys2Proof/WellFormed.lean ====
section
/-! DEFINITION. Which instructions have every operand in the "Legal" column of spec 30_encoding.md R82 (the wire rows:
in the form 45_wire_opcodes.md gives them), and the shape 42_control.md R131 puts on a documented bring-up table.
An instruction that is not well formed still runs: the block answers it with an error or a refusal (R90). -/

namespace Sys2Proof

/-- A value in 0..255 (R82). -/
def legalByte (v : Int) : Bool := decide (0 ≤ v) && decide (v ≤ 255)

/-- An intensity in 0..15 (R82). -/
def legalIntensity (v : Int) : Bool := decide (0 ≤ v) && decide (v ≤ 15)

/-- Every operand legal by R82; 0xA4, 0xA6, 0xAE and 0xAF take no operands (R164 to R167). -/
def Instr.wellFormed : Instr → Bool
  | .construct _ _ _ _ rows cols => rows == Config.rows && cols == Config.cols
  | .reset => true
  | .command opcode operands => legalByte opcode && operands.all legalByte
  | .sendData bytes => bytes.all legalByte
  | .initialise _ => true
  | .setDisplayPower _ => true
  | .resetAddressWindow => true
  | .setPixel x y v => decide (0 ≤ x) && decide (x ≤ 127) && decide (0 ≤ y) && decide (y ≤ 63) && legalIntensity v
  | .flush => true
  | .updateRegion x y vs =>
    decide (0 ≤ x) && decide (x + vs.length ≤ 128) && decide (0 ≤ y) && decide (y ≤ 63) && vs.all legalIntensity
  | .wire15 _ => true
  | .wire24 _ => true
  | .wire75 _ => true
  | .wire81 _ => true
  | .wireA4 p => p.isEmpty
  | .wireA6 p => p.isEmpty
  | .wireAE p => p.isEmpty
  | .wireAF p => p.isEmpty
  | .pixPair _ _ => true

/-- The shape R131 gives the bring-up table of steps 1 to 22: one entry per step, eight operands in step 9, and the
row and column windows [0, 63] as steps 21 and 22. R135 does not require it of a table (D29), so nothing enforces it. -/
def Config.InitTable.documented (t : Config.InitTable) : Bool :=
  t.entries.length == 22 &&
  (t.entries[8]?.map fun e => e.2.length) == some 8 &&
  t.entries[20]? == some (0x75, [Config.winLo, Config.winHi]) &&
  t.entries[21]? == some (0x15, [Config.winLo, Config.winHi])

end Sys2Proof
end

