-- ==== Sys2Proof/Decode.lean ====
section
/-! DEFINITION. Reading a request (spec 30_encoding.md R81 to R89) into an instruction, total and rejecting by name; the
encoder back; and the bit fields of the packed pixel byte (R85, R86). -/

namespace Sys2Proof

/-- Why a request names no instruction. -/
inductive DecodeError where
  /-- Selectors 10 to 15 name no operation (R89). -/
  | reservedSelector (op : BitVec 4)
  /-- An operand without a default is missing (R82). -/
  | missingOperand
  /-- An operand is not of the type R82 gives it. -/
  | operandType
  /-- More operands than R82 gives the operation. -/
  | tooManyOperands
  /-- A command burst has at least its opcode byte (R83). -/
  | emptyCommandBurst
  deriving DecidableEq, Repr

/-! ## The packed pixel byte -/

/-- `pack(a, b) = (a << 4) | b`, both operands zero-extended (R86, R151). -/
def pack (a b : Nibble) : Byte := (a.setWidth 8 <<< 4) ||| b.setWidth 8

/-- The high nibble `b[7:4]` (R8, R85). -/
def highNibble (b : Byte) : Nibble := b.extractLsb' 4 4

/-- The low nibble `b[3:0]` (R8, R85). -/
def lowNibble (b : Byte) : Nibble := b.extractLsb' 0 4

/-! ## Operands of a request, in order, with their defaults (R82) -/

/-- What an omitted operand becomes: its default, or a rejection where R82 gives none. -/
def orDefault {α : Type} (default : Option α) (rest : List Arg) : Except DecodeError (α × List Arg) :=
  match default with
  | some d => .ok (d, rest)
  | none => .error .missingOperand

/-- An `Int` operand. -/
def takeInt (default : Option Int) : List Arg → Except DecodeError (Int × List Arg)
  | [] => orDefault default []
  | .omitted :: rest => orDefault default rest
  | .num v :: rest => .ok (v, rest)
  | .list _ :: _ => .error .operandType
  | .bool _ :: _ => .error .operandType
  | .mode _ :: _ => .error .operandType

/-- A `Nat` operand. -/
def takeNat (default : Option Nat) : List Arg → Except DecodeError (Nat × List Arg)
  | [] => orDefault default []
  | .omitted :: rest => orDefault default rest
  | .num (.ofNat n) :: rest => .ok (n, rest)
  | .num (.negSucc _) :: _ => .error .operandType
  | .list _ :: _ => .error .operandType
  | .bool _ :: _ => .error .operandType
  | .mode _ :: _ => .error .operandType

/-- A `List Int` operand. -/
def takeList : List Arg → Except DecodeError (List Int × List Arg)
  | [] => .error .missingOperand
  | .omitted :: _ => .error .missingOperand
  | .list vs :: rest => .ok (vs, rest)
  | .num _ :: _ => .error .operandType
  | .bool _ :: _ => .error .operandType
  | .mode _ :: _ => .error .operandType

/-- The `operands` of `command`: default `[]`, and "a bare byte `b` is the list `[b]`" (R82, R93). -/
def takeOperands : List Arg → Except DecodeError (List Int × List Arg)
  | [] => .ok ([], [])
  | .omitted :: rest => .ok ([], rest)
  | .list vs :: rest => .ok (vs, rest)
  | .num v :: rest => .ok ([v], rest)
  | .bool _ :: _ => .error .operandType
  | .mode _ :: _ => .error .operandType

/-- A `Bool` operand. -/
def takeBool : List Arg → Except DecodeError (Bool × List Arg)
  | [] => .error .missingOperand
  | .omitted :: _ => .error .missingOperand
  | .bool b :: rest => .ok (b, rest)
  | .num _ :: _ => .error .operandType
  | .list _ :: _ => .error .operandType
  | .mode _ :: _ => .error .operandType

/-- A `vccMode` operand, default `SWITCH_CAP`. -/
def takeMode : List Arg → Except DecodeError (VccMode × List Arg)
  | [] => .ok (.switchCap, [])
  | .omitted :: rest => .ok (.switchCap, rest)
  | .mode m :: rest => .ok (m, rest)
  | .num _ :: _ => .error .operandType
  | .list _ :: _ => .error .operandType
  | .bool _ :: _ => .error .operandType

/-- No operand is left over. -/
def noMore (i : Instr) : List Arg → Except DecodeError Instr
  | [] => .ok i
  | _ :: _ => .error .tooManyOperands

/-! ## The request layer -/

/-- The record `{op, args}` of R81, operand by operand in the order and with the defaults of R82. -/
def decodeHostReq (op : BitVec 4) (args : List Arg) : Except DecodeError Instr :=
  match op.toNat with
  | 0 => do
    let (busIndex, a) ← takeNat (some 0) args
    let (deviceIndex, a) ← takeNat (some 0) a
    let (dcLine, a) ← takeNat (some 1) a
    let (resetLine, a) ← takeNat (some 2) a
    let (rows, a) ← takeNat (some 64) a
    let (cols, a) ← takeNat (some 128) a
    noMore (.construct busIndex deviceIndex dcLine resetLine rows cols) a
  | 1 => noMore .reset args
  | 2 => do
    let (opcode, a) ← takeInt none args
    let (operands, a) ← takeOperands a
    noMore (.command opcode operands) a
  | 3 => do
    let (bytes, a) ← takeList args
    noMore (.sendData bytes) a
  | 4 => do
    let (vccMode, a) ← takeMode args
    noMore (.initialise vccMode) a
  | 5 => do
    let (on, a) ← takeBool args
    noMore (.setDisplayPower on) a
  | 6 => noMore .resetAddressWindow args
  | 7 => do
    let (x, a) ← takeInt none args
    let (y, a) ← takeInt none a
    let (intensity, a) ← takeInt none a
    noMore (.setPixel x y intensity) a
  | 8 => noMore .flush args
  | 9 => do
    let (startX, a) ← takeInt none args
    let (startY, a) ← takeInt none a
    let (values, a) ← takeList a
    noMore (.updateRegion startX startY values) a
  | _ => .error (.reservedSelector op)

/-! ## The wire layer -/

/-- A byte as the number an operand of `command` or `sendData` is (R82). -/
def byteToInt (b : Byte) : Int := (b.toNat : Int)

/-- A command burst, read at its opcode byte (R83, R91); an opcode the source does not name is a plain `command`
(R168). -/
def decodeCommandBurst (opcode : Byte) (operands : List Byte) : Instr :=
  match opcode.toNat with
  | 0x15 => .wire15 operands
  | 0x24 => .wire24 operands
  | 0x75 => .wire75 operands
  | 0x81 => .wire81 operands
  | 0xA4 => .wireA4 operands
  | 0xA6 => .wireA6 operands
  | 0xAE => .wireAE operands
  | 0xAF => .wireAF operands
  | _ => .command (byteToInt opcode) (operands.map byteToInt)

/-- A burst, told apart by its D/C level (R88): LOW is a command burst, HIGH is data, where one byte is one pixel pair
(R85, R169) and any other number of bytes is a `sendData`. -/
def decodeBurst : Level → List Byte → Except DecodeError Instr
  | .low, [] => .error .emptyCommandBurst
  | .low, opcode :: operands => .ok (decodeCommandBurst opcode operands)
  | .high, [b] => .ok (.pixPair (highNibble b) (lowNibble b))
  | .high, bytes => .ok (.sendData (bytes.map byteToInt))

/-- The instruction a request stands for. -/
def decode : Request → Except DecodeError Instr
  | .hostReq op args => decodeHostReq op args
  | .wireBurst level bytes => decodeBurst level bytes

/-! ## The encoder -/

/-- A `Nat` operand in a request record. -/
def natArg (n : Nat) : Arg := .num (Int.ofNat n)

/-- The request of an instruction: selector and operands of R81 and R82, or the burst of R83 and R85. -/
def encode : Instr → Request
  | .construct busIndex deviceIndex dcLine resetLine rows cols =>
    .hostReq 0 [natArg busIndex, natArg deviceIndex, natArg dcLine, natArg resetLine, natArg rows, natArg cols]
  | .reset => .hostReq 1 []
  | .command opcode operands => .hostReq 2 [.num opcode, .list operands]
  | .sendData bytes => .hostReq 3 [.list bytes]
  | .initialise vccMode => .hostReq 4 [.mode vccMode]
  | .setDisplayPower on => .hostReq 5 [.bool on]
  | .resetAddressWindow => .hostReq 6 []
  | .setPixel x y intensity => .hostReq 7 [.num x, .num y, .num intensity]
  | .flush => .hostReq 8 []
  | .updateRegion startX startY values => .hostReq 9 [.num startX, .num startY, .list values]
  | .wire15 p => .wireBurst .low (0x15 :: p)
  | .wire24 p => .wireBurst .low (0x24 :: p)
  | .wire75 p => .wireBurst .low (0x75 :: p)
  | .wire81 p => .wireBurst .low (0x81 :: p)
  | .wireA4 p => .wireBurst .low (0xA4 :: p)
  | .wireA6 p => .wireBurst .low (0xA6 :: p)
  | .wireAE p => .wireBurst .low (0xAE :: p)
  | .wireAF p => .wireBurst .low (0xAF :: p)
  | .pixPair a b => .wireBurst .high [pack a b]

/-! ## Words of spec/opcode_table.json -/

/-- The operands of a table row whose word gives them no bits: zero, empty or false where R82 has no default, and left
out (so at their default) where it has one. DESIGN CHOICE (log 3). -/
def zeroOperands : Nat → List Arg
  | 2 => [.num 0]
  | 3 => [.list []]
  | 5 => [.bool false]
  | 7 => [.num 0, .num 0, .num 0]
  | 9 => [.num 0, .num 0, .list []]
  | _ => []

/-- The bytes of a table word of `nbits` bits, first byte least significant. -/
def tableBytes (nbits w : Nat) : List Byte :=
  (List.range ((nbits + 7) / 8)).map fun k => BitVec.ofNat 8 (w >>> (8 * k))

/-- The eight opcodes the source names (R91). -/
def namedOpcode (w : Nat) : Bool := [0x15, 0x24, 0x75, 0x81, 0xA4, 0xA6, 0xAE, 0xAF].contains w

/-- A table word as a request: a byte below 16 is a selector (rows of format HOSTREQ, R81); a byte the source names as an
opcode begins a command burst (rows of format WIRE_CMD, R83), as do longer words; any other byte fits the row PIXPAIR
alone, a byte of data (R85). DESIGN CHOICE (log 3). -/
def tableRequest (nbits w : Nat) : Request :=
  if nbits ≤ 8 then
    if w < 16 then .hostReq (BitVec.ofNat 4 w) (zeroOperands w)
    else if namedOpcode w then .wireBurst .low (tableBytes nbits w)
    else .wireBurst .high (tableBytes nbits w)
  else .wireBurst .low (tableBytes nbits w)

/-- The instruction the decoder reads from a word of spec/opcode_table.json. -/
def decodeTableWord (nbits w : Nat) : Option Instr :=
  match decode (tableRequest nbits w) with
  | .ok i => some i
  | .error _ => none

end Sys2Proof
end

