-- ==== Sys2Proof/Machine/State.lean ====
section
/-! DEFINITION. The state of the block (spec 10_state.md R20), the bookkeeping the spec gives the model, and what stops
a step. Plain data throughout. -/

namespace Sys2Proof.Machine

/-! ## The transport -/

/-- A call of the transport that can fail (R11, R172). -/
inductive Call where
  | setLine (l : Line) (v : Level)
  | write (bytes : List Byte)
  deriving DecidableEq, Repr

/-- An event of `TRACE` (R12). -/
inductive Event where
  | setLine (l : Line) (v : Level)
  | write (bytes : List Byte)
  | delay (ms : Nat)
  | failed (c : Call)
  deriving DecidableEq, Repr

/-! ## Errors -/

/-- The four error kinds (R170). -/
inductive ErrorKind where
  | configuration
  | transport
  | bounds
  | contract
  deriving DecidableEq, Repr

/-- The codes of R170. -/
def ErrorKind.code : ErrorKind → Nat
  | .configuration => 1
  | .transport => 2
  | .bounds => 3
  | .contract => 4

/-- An error with the info R170 records of it, as the operations' pseudocode raises it. -/
inductive ErrorRecord where
  /-- `ConfigurationError(busIndex, deviceIndex, dcLine, resetLine)` (R110). -/
  | configuration (busIndex deviceIndex dcLine resetLine : Nat)
  /-- `TransportError(call)` (R11). -/
  | transport (c : Call)
  /-- `BoundsError(setPixel, x, y)` (R140). -/
  | boundsPixel (x y : Int)
  /-- `BoundsError(updateRegion, startX, startY, n)` (R141). -/
  | boundsRegion (startX startY : Int) (n : Nat)
  /-- `ContractViolation(command or sendData, offending value)` (R120, R121). -/
  | contractByte (op : HostOp) (v : Int)
  /-- `ContractViolation(intensity, v)` of a store under `REJECT` (R142), with its operation (R170). -/
  | contractIntensity (op : HostOp) (v : Int)
  deriving DecidableEq, Repr

/-- The kind `K` of a record `(K, info)` (R175). -/
def ErrorRecord.kind : ErrorRecord → ErrorKind
  | .configuration _ _ _ _ => .configuration
  | .transport _ => .transport
  | .boundsPixel _ _ => .bounds
  | .boundsRegion _ _ _ => .bounds
  | .contractByte _ _ => .contract
  | .contractIntensity _ _ => .contract

/-- What a request returns to the host: success, or the error kind instead of success (R13, R175). -/
inductive Reply where
  | success
  | error (k : ErrorKind)
  deriving DecidableEq, Repr

/-! ## The framebuffer, the handle, the parameters -/

/-- One listed framebuffer cell: its address `(x, y)`, column first, and its content (R24, R50, R51). -/
abbrev Cell := (Nat × Nat) × Nibble

/-- The framebuffer: cells in rising order of address, none equal to what an unlisted cell reads as (`Memory.wf`). -/
abbrev Memory := List Cell

/-- What an unlisted cell reads as: 0, the content R34 gives every cell after `construct`. -/
abbrev Memory.blank : Nibble := 0

/-- The device handle (R28). -/
structure Handle where
  busIndex    : Nat
  deviceIndex : Nat
  dcLine      : Nat
  resetLine   : Nat
  rows        : Nat
  cols        : Nat
  deriving DecidableEq, Repr

/-- The handle of `construct()` with every operand at its default (R28, R93). -/
def Handle.defaults : Handle := ⟨0, 0, 1, 2, 64, 128⟩

/-- The packed transfer buffer: element `i` is packed column `i`, its element `y` the byte of row `y` (R29, R51). -/
abbrev Packed := List (List Byte)

/-- The parameters the model takes as arguments (R7): the bring-up tables, the window reset sequence, the intensity
policy. No operation writes them (R65, R215). -/
structure Params where
  initExternal    : Config.InitTable
  initSwitchCap   : Config.InitTable
  windowResetSeq  : List Config.Entry
  intensityPolicy : Config.IntensityPolicy
  deriving DecidableEq, Repr

/-- `INIT_TABLE(vccMode)` (R132). -/
def Params.initTable (p : Params) : VccMode → Config.InitTable
  | .external => p.initExternal
  | .switchCap => p.initSwitchCap

/-- The parameters as R7 gives them: window sequence and policy at their values, the tables OPEN. -/
def Params.defaults : Params where
  initExternal := Config.initTable .external
  initSwitchCap := Config.initTable .switchCap
  windowResetSeq := Config.defaultWindowResetSeq
  intensityPolicy := .mask

/-! ## What stops a step -/

/-- Why the machine stops with a fault. The four error kinds of R170 are no faults of this type: the block reports them
to the host and goes on (R175, R183). -/
inductive Fault where
  /-- Raised by `step` when no request is left: "the run ends when `pc = len(P)`" (R22). Safe: nothing is claimed of a
  step the block does not take. -/
  | runEnded
  deriving DecidableEq, Repr

/-- Why a request has no meaning. -/
inductive Refusal where
  /-- An arm of `exec` without a meaning; none is left. Safe. -/
  | notModelled (mnemonic : String)
  /-- Raised by `step` on a request that names no instruction: a reserved selector (R89) or operands that do not fit
  R82. Safe. -/
  | undecodable (e : DecodeError)
  /-- Raised by every operation but `construct` while `BOUND` is false (R31, D24). Safe. -/
  | unbound
  /-- Raised by `construct` on a bound block (R31, R110, D24). Safe. -/
  | alreadyBound
  /-- Raised by `construct` for `(rows, cols)` other than `(64, 128)` (R110, D7). Safe. -/
  | geometry
  deriving DecidableEq, Repr

/-! ## The state -/

/-- The complete state: the tuple of R20, the request queue and index of R22, the reply of R175, the parameters of R7
and the environment's verdicts of R178. `draws` is the model's own counter of free values (log 10). -/
structure State where
  /-- The requests P[pc], P[pc+1], ... the host has still to hand over (R22). -/
  requests   : List Request
  /-- The request index (R22). -/
  pc         : Nat
  /-- `BOUND` (R31). -/
  bound      : Bool
  /-- `FB` (R24). -/
  fb         : Memory
  /-- `DC`: the level last driven on the data/command line (R26). -/
  dc         : Level
  /-- `RST`: the level last driven on the reset line (R27). -/
  rst        : Level
  /-- `HANDLE` (R28). -/
  handle     : Handle
  /-- `PACKED`: present only while a flush runs (R29). -/
  packed     : Option Packed
  /-- `TRACE` (R30). -/
  trace      : List Event
  /-- `FAULTS`, oldest first (R31, R183). -/
  faults     : List ErrorRecord
  /-- What the latest request returned; `none` before the first returns (R13, R175). -/
  reply      : Option Reply
  /-- The parameters (R7). -/
  params     : Params
  /-- `FAIL`: the ordinals of the transport calls whose verdict is "fail" (R178). -/
  failAt     : List Nat
  /-- `BIND_OK` is false of exactly these (attempt, busIndex, deviceIndex, dcLine, resetLine): the verdict on the
  identifiers may differ from one attempt to the next (R7, R110, R178). -/
  bindDenied : List (Nat × Nat × Nat × Nat × Nat)
  /-- The ordinal of the next attempt to bind, that is the next `construct` that asks `BIND_OK` (R110, R178). -/
  attempts   : Nat
  /-- The ordinal of the next `T.setLine` or `T.writeBytes` call since `construct` (R178). -/
  calls      : Nat
  /-- The model's own counter of free values drawn (log 10). -/
  draws      : Nat
  deriving DecidableEq, Repr

/-- The unbound block at the start of a run, `pc = 0` (R34, R200). Fields that have no value before `construct` stand at
what `construct` will give them; no operation reads them (log 5). -/
def State.start : State where
  requests := []
  pc := 0
  bound := false
  fb := []
  dc := .low
  rst := .high
  handle := Handle.defaults
  packed := none
  trace := []
  faults := []
  reply := none
  params := Params.defaults
  failAt := []
  bindDenied := []
  attempts := 0
  calls := 0
  draws := 0

/-- The block right after its reset, which is a successful `construct()` (R34, R200). -/
def State.reset : State where
  requests := []
  pc := 1
  bound := true
  fb := []
  dc := .low
  rst := .high
  handle := Handle.defaults
  packed := none
  trace := []
  faults := []
  reply := some .success
  params := Params.defaults
  failAt := []
  bindDenied := []
  attempts := 1
  calls := 0
  draws := 0

end Sys2Proof.Machine
end

