-- ==== Sys2Proof/Machine/Flags.lean ====
section
/-! DEFINITION. The flag-like state of the block, its two line latches (spec 10_state.md R23, R26, R27). There are no
arithmetic flags and no condition codes (R23). -/

namespace Sys2Proof.Machine

/-- `LATCH[l]` (R11). -/
def State.latch (s : State) : Line → Level
  | .dc => s.dc
  | .reset => s.rst

/-- `LATCH[l] <- v` (R11). -/
def State.setLatch (s : State) (l : Line) (v : Level) : State :=
  { s with
    dc := match l with
      | .dc => v
      | .reset => s.dc
    rst := match l with
      | .dc => s.rst
      | .reset => v }

/-- The latch after a failed `T.setLine(l, v)`: "unspecified, one of {old LATCH[l], v}" (R11), so a free value. -/
def State.failLatch (s : State) (l : Line) (v : Level) : State :=
  { s.setLatch l (if Config.failedLineMoved s.draws then v else s.latch l) with draws := s.draws + 1 }

end Sys2Proof.Machine
end

