-- ==== Sys2Proof/Machine/Operands.lean ====
section
/-! DEFINITION. Operand checks and conversions: bytes (spec 30_encoding.md R90), coordinates (20_memory.md R60),
intensities (43_pixel_store.md R142), and the configuration-time check of the tables (42_control.md R135). -/

namespace Sys2Proof.Machine

/-- An operand known to be in 0..255, as a byte (R10 `zext_8`). -/
def toByte (v : Int) : Byte := BitVec.ofNat 8 v.toNat

/-- The values that are not bytes, in order (R90). -/
def badBytes (vs : List Int) : List Int := vs.filter fun v => !legalByte v

/-- `0 <= x < COLS and 0 <= y < ROWS` (R140). -/
def inFramebuffer (x y : Int) : Bool :=
  decide (0 ≤ x) && decide (x < Config.cols) && decide (0 ≤ y) && decide (y < Config.rows)

/-- `0 <= startX and startX + n <= COLS and 0 <= startY < ROWS` (R141). -/
def runFits (startX startY : Int) (n : Nat) : Bool :=
  decide (0 ≤ startX) && decide (startX + n ≤ Config.cols) && decide (0 ≤ startY) && decide (startY < Config.rows)

/-- `store_value(v) = v mod 16`, the mathematical remainder, also for negative `v` (R142). -/
def storeValue (v : Int) : Nibble := BitVec.ofNat 4 (v % 16).toNat

/-- The intensities a store rejects: none under `MASK`, those outside 0..15 under `REJECT` (R142). -/
def badIntensities (policy : Config.IntensityPolicy) (vs : List Int) : List Int :=
  match policy with
  | .mask => []
  | .reject => vs.filter fun v => !legalIntensity v

/-- The `n`-th of a non-empty list, the last where it has fewer. -/
def pick (n : Nat) (v : Int) : List Int → Int
  | [] => v
  | w :: rest =>
    match n with
    | 0 => v
    | k + 1 => pick k w rest
termination_by structural l => l

/-- A raw (opcode, operand list) pair as an entry, if all of it is bytes (R135). -/
def entryOfRaw (e : Int × List Int) : Option Config.Entry :=
  if legalByte e.1 && e.2.all legalByte then some (toByte e.1, e.2.map toByte) else none

/-- The check of R135 at configuration time on a raw sequence: `none` is the refusal of an ill-formed one. -/
def sequenceOfRaw : List (Int × List Int) → Option (List Config.Entry)
  | [] => some []
  | e :: rest =>
    match entryOfRaw e, sequenceOfRaw rest with
    | some a, some as => some (a :: as)
    | some _, none => none
    | none, _ => none

/-- The check of R135 on a raw bring-up table, which moreover is not empty. -/
def initTableOfRaw (raw : List (Int × List Int)) : Option Config.InitTable :=
  match sequenceOfRaw raw with
  | some (first :: rest) => some ⟨first, rest⟩
  | some [] => none
  | none => none

end Sys2Proof.Machine
end

