-- ==== Sys2Proof/Machine/Ops.lean ====
section
/-! DEFINITION. The named operations every meaning is built from: framebuffer access, the transport primitives and
scripts of them, raising an error, and the request queue. -/

namespace Sys2Proof.Machine

/-! ## Framebuffer (spec 20_memory.md R50 to R60) -/

/-- The order of the canonical form: column first, then row. -/
def Memory.before (p q : Nat × Nat) : Bool :=
  decide (p.1 < q.1) || (decide (p.1 = q.1) && decide (p.2 < q.2))

/-- Addresses strictly rising. -/
def Memory.sorted : Memory → Bool
  | [] => true
  | c :: rest => rest.all (fun d => Memory.before c.1 d.1) && Memory.sorted rest

/-- The canonical form: rising addresses, inside the map of R60, no cell that reads as an unlisted one. -/
def Memory.wf (m : Memory) : Bool :=
  Memory.sorted m &&
  m.all fun c => decide (c.1.1 < Config.cols) && decide (c.1.2 < Config.rows) && decide (c.2 ≠ Memory.blank)

/-- `FB[x][y]` (R10). -/
def Memory.read (m : Memory) (x y : Nat) : Nibble :=
  match m with
  | [] => Memory.blank
  | c :: rest => if c.1 = (x, y) then c.2 else Memory.read rest x y

/-- The framebuffer without a listing for `(x, y)`. -/
def Memory.erase (m : Memory) (x y : Nat) : Memory := m.filter fun c => !decide (c.1 = (x, y))

/-- List a cell at its place in the order. -/
def Memory.insert (c : Cell) : Memory → Memory
  | [] => [c]
  | d :: rest => if Memory.before c.1 d.1 then c :: d :: rest else d :: Memory.insert c rest

/-- `FB[x][y] <- v` (R10), keeping the canonical form. -/
def Memory.write (m : Memory) (x y : Nat) (v : Nibble) : Memory :=
  if v = Memory.blank then m.erase x y else Memory.insert ((x, y), v) (m.erase x y)

/-- A run along one row: x advances by one a value, y is fixed, no wraparound (R141, R143). -/
def Memory.writeRun (m : Memory) (x y : Nat) : List Nibble → Memory
  | [] => m
  | v :: vs => Memory.writeRun (m.write x y v) (x + 1) y vs

/-- What the host gets from a read-back of a cell between two requests (R144). -/
inductive ReadBack where
  | value (v : Nibble)
  /-- Out-of-range coordinates: a contract violation of the kind of R140. -/
  | bounds (x y : Int)
  /-- No Driver instance exists (R31). -/
  | noInstance
  deriving DecidableEq, Repr

/-- The host's read-back of `FB[x][y]` (R24, R144): no operation, no selector, no side effect (R59). -/
def readBack (s : State) (x y : Int) : ReadBack :=
  if s.bound then
    if inFramebuffer x y then .value (s.fb.read x.toNat y.toNat) else .bounds x y
  else .noInstance

/-! ## Raising an error, and success (spec 60_exceptions.md R175, R176) -/

/-- `raise K(info)`: the record is appended to `FAULTS` and the host gets the kind instead of success; nothing is saved,
nothing is rolled back. That the operation and its callers stop is the shape of `Attempt` and of the meanings. -/
def State.raise (e : ErrorRecord) (s : State) : State :=
  { s with faults := s.faults ++ [e], reply := some (.error e.kind) }

/-- The request returns success. -/
def State.succeed (s : State) : State := { s with reply := some .success }

/-- `raise ContractViolation(_, offending value)`, where which of several offending values is recorded is free
(log 11). -/
def State.raiseContract (record : Int → ErrorRecord) (v : Int) (rest : List Int) (s : State) : State :=
  { s.raise (record (pick (Config.offenderDraw s.draws) v rest)) with draws := s.draws + 1 }

/-! ## Transport primitives (spec 00_scope.md R11) -/

/-- `emit e` (R10). -/
def State.emit (s : State) (e : Event) : State := { s with trace := s.trace ++ [e] }

/-- The ordinal of the next call moves on (R178). -/
def State.countCall (s : State) : State := { s with calls := s.calls + 1 }

/-- Part of an operation: done, or abandoned with an error. -/
inductive Attempt where
  | done (s : State)
  | raised (e : ErrorRecord) (s : State)
  deriving DecidableEq, Repr

/-- How an attempt ends the request (R175). -/
def Attempt.settle : Attempt → State
  | .done s => s.succeed
  | .raised e s => s.raise e

/-- The event of a call that succeeds (R11). -/
def Call.event : Call → Event
  | .setLine l v => .setLine l v
  | .write bytes => .write bytes

/-- What a successful call does to the latches (R11). -/
def State.applyCall (s : State) : Call → State
  | .setLine l v => s.setLatch l v
  | .write _ => s

/-- What a failed call does to the latches (R11). -/
def State.applyFailedCall (s : State) : Call → State
  | .setLine l v => s.failLatch l v
  | .write _ => s

/-- `ok()`: the verdict of the next call (R11, R178). -/
def State.callOk (s : State) : Bool := !s.failAt.contains s.calls

/-- The state after the next call succeeded: latch, then event (R11). -/
def State.afterCall (s : State) (c : Call) : State := (s.countCall.applyCall c).emit c.event

/-- The state after the next call failed (R11). -/
def State.afterFailedCall (s : State) (c : Call) : State := (s.countCall.applyFailedCall c).emit (.failed c)

/-- `T.setLine` or `T.writeBytes` (R11). -/
def performCall (c : Call) (s : State) : Attempt :=
  if s.callOk then .done (s.afterCall c) else .raised (.transport c) (s.afterFailedCall c)

/-- One step of an operation's pseudocode that touches the transport. -/
inductive Action where
  | call (c : Call)
  | delay (ms : Nat)
  deriving DecidableEq, Repr

/-- `T.setLine(l, v)`. -/
abbrev Action.setLine (l : Line) (v : Level) : Action := .call (.setLine l v)

/-- `T.writeBytes(bytes)`. -/
abbrev Action.write (bytes : List Byte) : Action := .call (.write bytes)

/-- Transport calls in program order, up to the first that fails (R39, R62, R177); a delay never fails (R11, D16). -/
def perform : List Action → State → Attempt
  | [], s => .done s
  | .delay ms :: rest, s => perform rest (s.emit (.delay ms))
  | .call c :: rest, s =>
    match performCall c s with
    | .done t => perform rest t
    | .raised e t => .raised e t

/-! ## The scripts the operations are made of -/

/-- The three calls of `command` on a burst that is all bytes (R120). -/
def commandScript (opcode : Byte) (operands : List Byte) : List Action :=
  [.setLine .dc .low, .write (opcode :: operands), .setLine .dc .high]

/-- The three calls of `sendData` on a burst that is all bytes (R121). -/
def dataScript (bytes : List Byte) : List Action :=
  [.setLine .dc .high, .write bytes, .setLine .dc .low]

/-- The pulse of `reset` (R111). -/
def resetScript : List Action :=
  [.setLine .reset .low, .delay Config.resetPulseMs, .setLine .reset .high]

/-- One `command` for each entry, in order (R130, R134, D29). -/
def replayScript (entries : List Config.Entry) : List Action :=
  entries.flatMap fun e => commandScript e.1 e.2

/-! ## Entering an operation -/

/-- `if not BOUND: refuse`, and otherwise the operation (R31, R182). -/
def onBound (s : State) (f : State → State) : Host.Outcome State Fault Refusal :=
  if s.bound then .next (f s) else .refused .unbound

/-- An operation that is a fixed script of transport calls. -/
def transact (script : List Action) (s : State) : Host.Outcome State Fault Refusal :=
  onBound s fun s => (perform script s).settle

/-! ## The request queue (spec 10_state.md R22) -/

/-- The request at `pc` and the requests after it. -/
def State.fetch (s : State) : Option (Request × List Request) :=
  match s.requests with
  | [] => none
  | r :: rest => some (r, rest)

/-- `pc <- pc + 1`, after success and after an error alike (R22). -/
def State.advance (s : State) (rest : List Request) : State := { s with pc := s.pc + 1, requests := rest }

end Sys2Proof.Machine
end

