-- ==== Sys2Proof/Machine/Control.lean ====
section
/-! DEFINITION. `initialize`, `setDisplayPower` and `resetAddressWindow` (spec 42_control.md). -/

namespace Sys2Proof.Machine

/-- `initialize` (R130): wait 1 ms, reset pulse, one `command` for each table entry, window reset. -/
def initialiseScript (p : Params) (vccMode : VccMode) : List Action :=
  .delay Config.preResetMs :: resetScript ++ replayScript (p.initTable vccMode).entries ++
    replayScript p.windowResetSeq

/-- `initialize` (R130, R132, R136). -/
def execInitialise (vccMode : VccMode) (s : State) : Host.Outcome State Fault Refusal :=
  transact (initialiseScript s.params vccMode) s

/-- The opcode of `setDisplayPower`: 0xA4 for on, 0xA6 for off, not a toggle (R133). -/
def displayPowerOpcode (on : Bool) : Byte := if on then 0xA4 else 0xA6

/-- `setDisplayPower` (R133). -/
def execSetDisplayPower (on : Bool) (s : State) : Host.Outcome State Fault Refusal :=
  transact (commandScript (displayPowerOpcode on) []) s

/-- `resetAddressWindow` (R134): one `command` for each entry of `WINDOW_RESET_SEQ`. -/
def execResetAddressWindow (s : State) : Host.Outcome State Fault Refusal :=
  transact (replayScript s.params.windowResetSeq) s

end Sys2Proof.Machine
end

