-- ==== Sys2Proof/Machine/Flush.lean ====
section
/-! DEFINITION. The packing engine, `flush` (spec 44_flush_packing.md). -/

namespace Sys2Proof.Machine

/-- `PACKED[i][y] = pack(FB[2i][y], FB[2i+1][y])` (R151). -/
def packedByte (m : Memory) (i y : Nat) : Byte := pack (m.read (2 * i) y) (m.read (2 * i + 1) y)

/-- Packed column `i`, row 0 first: burst `B_i` (R152). -/
def packedColumn (m : Memory) (i : Nat) : List Byte := (List.range Config.rows).map (packedByte m i)

/-- Phase 1: the whole framebuffer is packed before the first byte is sent (R150). -/
def packAll (m : Memory) : Packed := (List.range Config.packedCols).map (packedColumn m)

/-- Phase 2: one `sendData` for each packed column, in increasing order (R150, R152). -/
def flushScript (p : Packed) : List Action := p.flatMap dataScript

/-- `flush` (R150): `PACKED` exists only while it runs (R29). -/
def flushBody (s : State) : State :=
  { (perform (flushScript (packAll s.fb)) { s with packed := some (packAll s.fb) }).settle with packed := none }

/-- `flush` (R150). -/
def execFlush (s : State) : Host.Outcome State Fault Refusal := onBound s flushBody

end Sys2Proof.Machine
end

