-- ==== Sys2Proof/Machine/Framing.lean ====
section
/-! DEFINITION. `command` and `sendData` (spec 41_framing.md). -/

namespace Sys2Proof.Machine

/-- `ContractViolation` if some value is no byte, before any transport call; else the script (R90, R120, R121, R182). -/
def frameBytes (op : HostOp) (values : List Int) (script : List Action) (s : State) : State :=
  match badBytes values with
  | [] => (perform script s).settle
  | v :: rest => s.raiseContract (.contractByte op) v rest

/-- `command` (R120): D/C LOW, one burst `[opcode] ++ operands`, D/C HIGH. -/
def execCommand (opcode : Int) (operands : List Int) (s : State) : Host.Outcome State Fault Refusal :=
  onBound s (frameBytes .command (opcode :: operands) (commandScript (toByte opcode) (operands.map toByte)))

/-- `sendData` (R121): D/C HIGH, one burst, D/C LOW; an empty burst is sent too (D20). -/
def execSendData (bytes : List Int) (s : State) : Host.Outcome State Fault Refusal :=
  onBound s (frameBytes .sendData bytes (dataScript (bytes.map toByte)))

end Sys2Proof.Machine
end

