-- ==== Sys2Proof/Machine/Lifecycle.lean ====
section
/-! DEFINITION. `construct` and `reset` (spec 40_lifecycle.md). -/

namespace Sys2Proof.Machine

/-- The state a successful `construct` leaves: everything of R34. -/
def State.constructed (s : State) (h : Handle) : State :=
  { s with
    bound := true
    fb := []
    dc := .low
    rst := .high
    handle := h
    packed := none
    trace := []
    calls := 0
    reply := some .success }

/-- `BIND_OK(busIndex, deviceIndex, dcLine, resetLine)`, the environment's verdict on this attempt (R7, R110, R178). -/
def State.bindOk (s : State) (busIndex deviceIndex dcLine resetLine : Nat) : Bool :=
  !s.bindDenied.contains (s.attempts, busIndex, deviceIndex, dcLine, resetLine)

/-- The environment has been asked for the verdict of one more attempt; a later `construct` is "a fresh attempt" (R110). -/
def State.countAttempt (s : State) : State := { s with attempts := s.attempts + 1 }

/-- `construct` (R110): refused on a bound block and for another geometry; `ConfigurationError` before any state is
written. -/
def execConstruct (busIndex deviceIndex dcLine resetLine rows cols : Nat) (s : State) :
    Host.Outcome State Fault Refusal :=
  if s.bound then .refused .alreadyBound
  else if rows = Config.rows ∧ cols = Config.cols then
    if s.bindOk busIndex deviceIndex dcLine resetLine then
      .next (s.countAttempt.constructed ⟨busIndex, deviceIndex, dcLine, resetLine, rows, cols⟩)
    else .next (s.countAttempt.raise (.configuration busIndex deviceIndex dcLine resetLine))
  else .refused .geometry

/-- `reset` (R111): one LOW pulse on the controller's reset line; not a reset of the block (R35). -/
def execReset (s : State) : Host.Outcome State Fault Refusal := transact resetScript s

end Sys2Proof.Machine
end

