-- ==== Sys2Proof/Machine/PixelStore.lean ====
section
/-! DEFINITION. `setPixel` and `updateRegion` (spec 43_pixel_store.md). Neither makes a transport call. -/

namespace Sys2Proof.Machine

/-- The stores of R140 and R141 once the coordinates are known to be in range: under `REJECT` an intensity outside 0..15
raises before any store; else every value is stored as `store_value` gives it (R142). -/
def storeRun (op : HostOp) (x y : Int) (values : List Int) (s : State) : State :=
  match badIntensities s.params.intensityPolicy values with
  | [] => { s with fb := s.fb.writeRun x.toNat y.toNat (values.map storeValue) }.succeed
  | v :: rest => s.raiseContract (.contractIntensity op) v rest

/-- `setPixel` (R140): the coordinates are checked first (R182). -/
def execSetPixel (x y intensity : Int) (s : State) : Host.Outcome State Fault Refusal :=
  onBound s fun s =>
    if inFramebuffer x y then storeRun .setPixel x y [intensity] s else s.raise (.boundsPixel x y)

/-- `updateRegion` (R141): `BoundsError` before any store, so all cells or none (R58). -/
def execUpdateRegion (startX startY : Int) (values : List Int) (s : State) : Host.Outcome State Fault Refusal :=
  onBound s fun s =>
    if runFits startX startY values.length then storeRun .updateRegion startX startY values s
    else s.raise (.boundsRegion startX startY values.length)

end Sys2Proof.Machine
end

