-- ==== Sys2Proof/Machine/Wire.lean ====
section
/-! DEFINITION. The rows of the wire layer (spec 45_wire_opcodes.md, 30_encoding.md R85). The block does not execute an
opcode, it emits it: "what the block does (pseudocode is the `command` call)". What the controller then does is remote
state the model does not hold (R32). DEDUCED (log 2). -/

namespace Sys2Proof.Machine

/-- 0x15, column address window (R160): the command burst `[0x15] ++ operands`. -/
def execWire15 (operands : List Byte) (s : State) : Host.Outcome State Fault Refusal :=
  transact (commandScript 0x15 operands) s

/-- 0x24, "opcode 0x24 region" (R161): the command burst `[0x24] ++ operands`. -/
def execWire24 (operands : List Byte) (s : State) : Host.Outcome State Fault Refusal :=
  transact (commandScript 0x24 operands) s

/-- 0x75, row address window (R162): the command burst `[0x75] ++ operands`. -/
def execWire75 (operands : List Byte) (s : State) : Host.Outcome State Fault Refusal :=
  transact (commandScript 0x75 operands) s

/-- 0x81, the opcode of the source's framing example (R163): the command burst `[0x81] ++ operands`. -/
def execWire81 (operands : List Byte) (s : State) : Host.Outcome State Fault Refusal :=
  transact (commandScript 0x81 operands) s

/-- 0xA4, normal display mode (R164): the command burst `[0xA4] ++ operands`. -/
def execWireA4 (operands : List Byte) (s : State) : Host.Outcome State Fault Refusal :=
  transact (commandScript 0xA4 operands) s

/-- 0xA6, the "off" of `setDisplayPower` (R165): the command burst `[0xA6] ++ operands`. -/
def execWireA6 (operands : List Byte) (s : State) : Host.Outcome State Fault Refusal :=
  transact (commandScript 0xA6 operands) s

/-- 0xAE, sleep (R166): the command burst `[0xAE] ++ operands`. -/
def execWireAE (operands : List Byte) (s : State) : Host.Outcome State Fault Refusal :=
  transact (commandScript 0xAE operands) s

/-- 0xAF, display on (R167): the command burst `[0xAF] ++ operands`. -/
def execWireAF (operands : List Byte) (s : State) : Host.Outcome State Fault Refusal :=
  transact (commandScript 0xAF operands) s

/-- PIXPAIR (R85): the packed byte `(a << 4) | b` of two neighbouring pixels, as display-memory data under D/C HIGH
(R169). -/
def execPixPair (a b : Nibble) (s : State) : Host.Outcome State Fault Refusal :=
  transact (dataScript [pack a b]) s

end Sys2Proof.Machine
end

