-- ==== Sys2Proof/Machine/Dispatch.lean ====
section
/-! DEFINITION. One arm per instruction. -/

namespace Sys2Proof.Machine

def exec (i : Instr) (s : State) : Host.Outcome State Fault Refusal :=
  match i with
  | .construct busIndex deviceIndex dcLine resetLine rows cols => Sys2Proof.Machine.execConstruct busIndex deviceIndex dcLine resetLine rows cols s
  | .reset => Sys2Proof.Machine.execReset s
  | .command opcode operands => Sys2Proof.Machine.execCommand opcode operands s
  | .sendData bytes => Sys2Proof.Machine.execSendData bytes s
  | .initialise vccMode => Sys2Proof.Machine.execInitialise vccMode s
  | .setDisplayPower on => Sys2Proof.Machine.execSetDisplayPower on s
  | .resetAddressWindow => Sys2Proof.Machine.execResetAddressWindow s
  | .setPixel x y intensity => Sys2Proof.Machine.execSetPixel x y intensity s
  | .flush => Sys2Proof.Machine.execFlush s
  | .updateRegion startX startY values => Sys2Proof.Machine.execUpdateRegion startX startY values s
  | .wire15 operands => Sys2Proof.Machine.execWire15 operands s
  | .wire24 operands => Sys2Proof.Machine.execWire24 operands s
  | .wire75 operands => Sys2Proof.Machine.execWire75 operands s
  | .wire81 operands => Sys2Proof.Machine.execWire81 operands s
  | .wireA4 operands => Sys2Proof.Machine.execWireA4 operands s
  | .wireA6 operands => Sys2Proof.Machine.execWireA6 operands s
  | .wireAE operands => Sys2Proof.Machine.execWireAE operands s
  | .wireAF operands => Sys2Proof.Machine.execWireAF operands s
  | .pixPair a b => Sys2Proof.Machine.execPixPair a b s

end Sys2Proof.Machine
end

