-- ==== Sys2Proof/Machine/Step.lean ====
section
/-! DEFINITION. One step: the request at `pc` runs whole (spec 00_scope.md R6, 10_state.md R22). -/

namespace Sys2Proof.Machine

/-- One step (R6, R22): the next request is decoded and executed, and `pc` moves on by one after success and after an
error alike; without a request left the run has ended. -/
def step (s : State) : Host.Outcome State Fault Refusal :=
  match s.fetch with
  | none => .fault .runEnded
  | some (r, rest) =>
    match decode r with
    | .error e => .refused (.undecodable e)
    | .ok i =>
      match exec i s with
      | .next t => .next (t.advance rest)
      | .fault f => .fault f
      | .refused q => .refused q

/-- The request of a table word, put where `step` takes its next request: at the head of the queue (log 4). -/
def State.withFetchWord (s : State) (nbits w : Nat) : State :=
  { s with requests := tableRequest nbits w :: s.requests.tail }

end Sys2Proof.Machine
end

