-- ==== Sys2Proof/Safety.lean ====
section
/-! DEFINITION. The terms claims are stated in: events as spec 95_test_vectors.md writes them, what a reader of `TRACE`
sees, premises on the transport, the invariant of the block, and sequences of operations. -/

namespace Sys2Proof.Machine

/-! ## Events, as 95_test_vectors.md writes them -/

/-- `C(o, p)`: the events of one command burst (R120, R136). -/
def commandEvents (opcode : Byte) (operands : List Byte) : List Event :=
  [.setLine .dc .low, .write (opcode :: operands), .setLine .dc .high]

/-- `D(bs)`: the events of one data burst (R121). -/
def dataEvents (bytes : List Byte) : List Event :=
  [.setLine .dc .high, .write bytes, .setLine .dc .low]

/-- The events of one reset pulse (R111). -/
def resetEvents : List Event :=
  [.setLine .reset .low, .delay 10, .setLine .reset .high]

/-- One `C(o, p)` for each entry, in order (R136). -/
def replayEvents (entries : List Config.Entry) : List Event :=
  entries.flatMap fun e => commandEvents e.1 e.2

/-- The bytes a sequence of entries puts on the wire (R136). -/
def replayBytes (entries : List Config.Entry) : List Byte :=
  entries.flatMap fun e => e.1 :: e.2

/-- The events of a flush of this framebuffer (R150, R152). -/
def flushEvents (m : Memory) : List Event :=
  (List.range 64).flatMap fun i => dataEvents (packedColumn m i)

/-! ## Reading a trace -/

/-- The bursts of the `Write` events, in order. -/
def writes : List Event → List (List Byte)
  | [] => []
  | .write bytes :: rest => bytes :: writes rest
  | .setLine _ _ :: rest => writes rest
  | .delay _ :: rest => writes rest
  | .failed _ :: rest => writes rest

/-- The lines and levels of the `SetLine` events, in order. -/
def lineEvents : List Event → List (Line × Level)
  | [] => []
  | .setLine l v :: rest => (l, v) :: lineEvents rest
  | .write _ :: rest => lineEvents rest
  | .delay _ :: rest => lineEvents rest
  | .failed _ :: rest => lineEvents rest

/-- The arguments of the `Delay` events, in order. -/
def delays : List Event → List Nat
  | [] => []
  | .delay ms :: rest => ms :: delays rest
  | .setLine _ _ :: rest => delays rest
  | .write _ :: rest => delays rest
  | .failed _ :: rest => delays rest

/-- The calls of the `Failed` events, in order. -/
def failedCalls : List Event → List Call
  | [] => []
  | .failed c :: rest => c :: failedCalls rest
  | .setLine _ _ :: rest => failedCalls rest
  | .write _ :: rest => failedCalls rest
  | .delay _ :: rest => failedCalls rest

/-- The verdict of each fallible call the trace records, in order: true for ok, false for fail (R178). -/
def verdicts : List Event → List Bool
  | [] => []
  | .setLine _ _ :: rest => true :: verdicts rest
  | .write _ :: rest => true :: verdicts rest
  | .failed _ :: rest => false :: verdicts rest
  | .delay _ :: rest => verdicts rest

/-- The bursts with the D/C level in force at each: the level of the last `SetLine(DC, _)` before it, or the level at
the start if there is none (R88). -/
def bursts (atStart : Level) : List Event → List (Level × List Byte)
  | [] => []
  | .setLine .dc v :: rest => bursts v rest
  | .setLine .reset _ :: rest => bursts atStart rest
  | .write bytes :: rest => (atStart, bytes) :: bursts atStart rest
  | .delay _ :: rest => bursts atStart rest
  | .failed _ :: rest => bursts atStart rest

/-- The levels a latch may hold after these events: the last level driven, and after a failed `SetLine` either that or
the level asked for (R11). -/
def possibleLevels (l : Line) (levels : List Level) : List Event → List Level
  | [] => levels
  | .setLine m v :: rest => possibleLevels l (if m = l then [v] else levels) rest
  | .failed (.setLine m v) :: rest => possibleLevels l (if m = l then v :: levels else levels) rest
  | .failed (.write _) :: rest => possibleLevels l levels rest
  | .write _ :: rest => possibleLevels l levels rest
  | .delay _ :: rest => possibleLevels l levels rest

/-- Every D/C event and every `Write` stands in a bracket `SetLine(DC, v), Write(_), SetLine(DC, not v)` with `v` among
the given levels, and nothing failed: LOW brackets command bursts, HIGH brackets data bursts (R124). -/
def framed (allowed : List Level) : List Event → Bool
  | [] => true
  | .setLine .dc v :: .write _ :: .setLine .dc w :: rest =>
    allowed.contains v && decide (w = v.flip) && framed allowed rest
  | .setLine .reset _ :: rest => framed allowed rest
  | .delay _ :: rest => framed allowed rest
  | _ => false

/-- The calls the recorded `TransportError`s name, oldest first (R170). -/
def transportCalls : List ErrorRecord → List Call
  | [] => []
  | .transport c :: rest => c :: transportCalls rest
  | .configuration _ _ _ _ :: rest => transportCalls rest
  | .boundsPixel _ _ :: rest => transportCalls rest
  | .boundsRegion _ _ _ :: rest => transportCalls rest
  | .contractByte _ _ :: rest => transportCalls rest
  | .contractIntensity _ _ :: rest => transportCalls rest

/-! ## Premises -/

/-- The verdicts of the next `k` transport calls are all "ok" (R178). -/
def State.healthy (s : State) (k : Nat) : Bool :=
  s.failAt.all fun n => decide (n < s.calls) || decide (s.calls + k ≤ n)

/-- The first of the next transport calls to fail is the `k`-th from now, counting from 0 (R178). -/
def State.firstFailure (s : State) (k : Nat) : Bool := s.healthy k && s.failAt.contains (s.calls + k)

/-! ## Properties of one operation -/

/-- What an instruction does to the outside and to the framebuffer, by the table of R38. -/
inductive OpClass where
  /-- Binds the block (R110). -/
  | constructs
  /-- Pulses the reset line and sends nothing (R111). -/
  | pulsesReset
  /-- Sends command bursts only (R120, R133, R134, R160 to R167). -/
  | sendsCommands
  /-- Pulses the reset line and sends command bursts (R130). -/
  | bringsUp
  /-- Sends data bursts only (R121, R150, R85). -/
  | sendsData
  /-- Stores to the framebuffer, without a transport call (R140, R141). -/
  | stores
  deriving DecidableEq, Repr

/-- The class of each instruction. -/
def opClass : Instr → OpClass
  | .construct _ _ _ _ _ _ => .constructs
  | .reset => .pulsesReset
  | .command _ _ => .sendsCommands
  | .sendData _ => .sendsData
  | .initialise _ => .bringsUp
  | .setDisplayPower _ => .sendsCommands
  | .resetAddressWindow => .sendsCommands
  | .setPixel _ _ _ => .stores
  | .flush => .sendsData
  | .updateRegion _ _ _ => .stores
  | .wire15 _ => .sendsCommands
  | .wire24 _ => .sendsCommands
  | .wire75 _ => .sendsCommands
  | .wire81 _ => .sendsCommands
  | .wireA4 _ => .sendsCommands
  | .wireA6 _ => .sendsCommands
  | .wireAE _ => .sendsCommands
  | .wireAF _ => .sendsCommands
  | .pixPair _ _ => .sendsData

/-- The levels the bursts of a class go out under: LOW for command bursts, HIGH for data bursts (R124). -/
def OpClass.burstLevels : OpClass → List Level
  | .constructs => []
  | .pulsesReset => []
  | .sendsCommands => [.low]
  | .bringsUp => [.low]
  | .sendsData => [.high]
  | .stores => []

/-- The host operations whose number operands must be bytes (R174). -/
def checksBytes : Instr → Bool
  | .command _ _ => true
  | .sendData _ => true
  | .construct _ _ _ _ _ _ => false
  | .reset => false
  | .initialise _ => false
  | .setDisplayPower _ => false
  | .resetAddressWindow => false
  | .setPixel _ _ _ => false
  | .flush => false
  | .updateRegion _ _ _ => false
  | .wire15 _ => false
  | .wire24 _ => false
  | .wire75 _ => false
  | .wire81 _ => false
  | .wireA4 _ => false
  | .wireA6 _ => false
  | .wireAE _ => false
  | .wireAF _ => false
  | .pixPair _ _ => false

/-- The matrix of R179: which instruction can raise which kind; the stores raise `ContractViolation` under `REJECT`
only. -/
def canRaise (i : Instr) (policy : Config.IntensityPolicy) : ErrorKind → Bool
  | .configuration => decide (opClass i = .constructs)
  | .transport => !decide (opClass i = .constructs) && !decide (opClass i = .stores)
  | .bounds => decide (opClass i = .stores)
  | .contract => checksBytes i || (decide (opClass i = .stores) && decide (policy = .reject))

/-- The column "DC after" of R38; a wire row is the `command` or `sendData` call it is (R160 to R169, log 2). -/
def restingDc (i : Instr) (s : State) : Level :=
  match i with
  | .construct _ _ _ _ _ _ => .low
  | .reset => s.dc
  | .command _ _ => .high
  | .sendData _ => .low
  | .initialise _ => .high
  | .setDisplayPower _ => .high
  | .resetAddressWindow => if s.params.windowResetSeq = [] then s.dc else .high
  | .setPixel _ _ _ => s.dc
  | .flush => .low
  | .updateRegion _ _ _ => s.dc
  | .wire15 _ => .high
  | .wire24 _ => .high
  | .wire75 _ => .high
  | .wire81 _ => .high
  | .wireA4 _ => .high
  | .wireA6 _ => .high
  | .wireAE _ => .high
  | .wireAF _ => .high
  | .pixPair _ _ => .low

/-- The column "Events appended" of R38; a wire row is the `command` or `sendData` call it is (R160 to R169, log 2). -/
def eventCount (i : Instr) (p : Params) : Nat :=
  match i with
  | .construct _ _ _ _ _ _ => 0
  | .reset => 3
  | .command _ _ => 3
  | .sendData _ => 3
  | .initialise m => 4 + 3 * ((p.initTable m).entries.length + p.windowResetSeq.length)
  | .setDisplayPower _ => 3
  | .resetAddressWindow => 3 * p.windowResetSeq.length
  | .setPixel _ _ _ => 0
  | .flush => 192
  | .updateRegion _ _ _ => 0
  | .wire15 _ => 3
  | .wire24 _ => 3
  | .wire75 _ => 3
  | .wire81 _ => 3
  | .wireA4 _ => 3
  | .wireA6 _ => 3
  | .wireAE _ => 3
  | .wireAF _ => 3
  | .pixPair _ _ => 3

/-! ## The invariant of the block -/

/-- What holds between any two requests. -/
structure Inv (s : State) : Prop where
  /-- The framebuffer is in canonical form, all inside the map of R60. -/
  fb_wf : s.fb.wf = true
  /-- `PACKED` "has no value before a flush and none after" (R29). -/
  no_packed : s.packed = none
  /-- The one admitted geometry (R28, D7). -/
  geometry : s.bound = true → s.handle.rows = 64 ∧ s.handle.cols = 128
  /-- Before `construct` nothing was sent (R34). -/
  unbound_trace : s.bound = false → s.trace = []
  /-- `DC` is a level the trace allows, starting from LOW (R26, R34). -/
  dc_traced : s.dc ∈ possibleLevels .dc [.low] s.trace
  /-- `RST` is a level the trace allows, starting from HIGH (R27, R34). -/
  rst_traced : s.rst ∈ possibleLevels .reset [.high] s.trace
  /-- Each `TransportError` on record has its `Failed` event, in order, and each `Failed` event its error (R11, R177). -/
  errors_traced : transportCalls s.faults = failedCalls s.trace
  /-- The trace records exactly the verdicts of the calls made since `construct` (R178). -/
  verdicts_traced : verdicts s.trace = (List.range s.calls).map fun n => !s.failAt.contains n

/-! ## Sequences of operations -/

/-- The operations one after the other, stopping at the first that does not return success, as a caller of them inside
the block does (R39, R175); success if all succeed. -/
def execAll : List Instr → State → Host.Outcome State Fault Refusal
  | [], s => .next s.succeed
  | i :: rest, s =>
    match exec i s with
    | .next t => if t.reply = some .success then execAll rest t else .next t
    | .fault f => .fault f
    | .refused q => .refused q

/-- `command(o, p)` for an entry (R93). -/
def entryCommand (e : Config.Entry) : Instr := .command (byteToInt e.1) (e.2.map byteToInt)

/-- Two states that differ only in the levels of the latches. -/
def State.withLatches (s : State) (dc rst : Level) : State := { s with dc := dc, rst := rst }

/-- Two states that differ only in the device handle. -/
def State.withHandle (s : State) (h : Handle) : State := { s with handle := h }

/-- The same outcome with another device handle in its state. -/
def outcomeWithHandle (h : Handle) : Host.Outcome State Fault Refusal → Host.Outcome State Fault Refusal
  | .next t => .next (t.withHandle h)
  | .fault f => .fault f
  | .refused q => .refused q

end Sys2Proof.Machine
end

