-- ==== Sys2Proof/Certificates/Slice0/Obligations.lean ====
section
/-! DEFINITION. The statements for the provers. -/

open Sys2Proof Sys2Proof.Machine

/-! ## Encodings -/

/-- 30_encoding.md R81 to R85: reading back what the encoder writes gives the instruction, for every instruction and every
value of every operand. -/
def Obligations.DecodeOfEncodeIsTheInstruction : Prop :=
  ∀ i : Instr, decode (encode i) = .ok i

/-- 30_encoding.md R81, R83, R85: a few requests written out from the tables there. -/
def Obligations.SpecWordsDecode : Prop :=
  decode (.hostReq 0b0001 []) = .ok .reset ∧
  decode (.hostReq 0b0011 [.list [0x12, 0x34]]) = .ok (.sendData [0x12, 0x34]) ∧
  decode (.hostReq 0b0111 [.num 3, .num 4, .num 9]) = .ok (.setPixel 3 4 9) ∧
  decode (.hostReq 0b1000 []) = .ok .flush ∧
  decode (.wireBurst .low [0b00010101, 0x00, 0x3F]) = .ok (.wire15 [0x00, 0x3F]) ∧
  decode (.wireBurst .high [0b10100100]) = .ok (.pixPair 10 4)

/-- 30_encoding.md R82, R93: omitted operands take their defaults, and a bare byte is a one-element operand list. -/
def Obligations.OmittedOperandsTakeTheirDefaults : Prop :=
  decode (.hostReq 0 []) = .ok (.construct 0 0 1 2 64 128) ∧
  (∀ d : Nat, decode (.hostReq 0 [.omitted, natArg d]) = .ok (.construct 0 d 1 2 64 128)) ∧
  (∀ o : Int, decode (.hostReq 2 [.num o]) = .ok (.command o [])) ∧
  (∀ o b : Int, decode (.hostReq 2 [.num o, .num b]) = .ok (.command o [b])) ∧
  decode (.hostReq 4 []) = .ok (.initialise .switchCap)

/-- 30_encoding.md R89: selectors 10 to 15 name no operation, and a request that carries one is refused. -/
def Obligations.ReservedSelectorsAreRefused : Prop :=
  ∀ (s : State) (op : BitVec 4) (args : List Arg) (rest : List Request),
    10 ≤ op.toNat → s.requests = .hostReq op args :: rest →
    step s = .refused (.undecodable (.reservedSelector op))

/-- 30_encoding.md R86: the assembly of a packed byte. -/
def Obligations.PackedByteAssembly : Prop :=
  ∀ (m : Memory) (i y : Nat),
    packedByte m i y = (m.read (2 * i) y).setWidth 8 <<< 4 ||| (m.read (2 * i + 1) y).setWidth 8 ∧
    (packedByte m i y).toNat = 16 * (m.read (2 * i) y).toNat + (m.read (2 * i + 1) y).toNat ∧
    (packedByte m i y).toNat ≤ 255 ∧
    (m.read (2 * i) y).setWidth 8 <<< 4 &&& (m.read (2 * i + 1) y).setWidth 8 = 0

/-- 44_flush_packing.md R155 (1) to (5): the arithmetic of `pack`. -/
def Obligations.PackIsInjectiveAndFieldwise : Prop :=
  (∀ a b : Nibble, highNibble (pack a b) = a ∧ lowNibble (pack a b) = b ∧
    (pack a b).toNat = 16 * a.toNat + b.toNat) ∧
  (∀ a b c d : Nibble, pack a b = pack c d → a = c ∧ b = d) ∧
  pack 0 0 = 0x00 ∧ pack 15 15 = 0xFF ∧ pack 15 0 = 0xF0 ∧ pack 0 15 = 0x0F

/-! ## A step -/

/-- 00_scope.md R6, 10_state.md R22: a step runs the decoded request, then moves the request index on by one; it stops
where decoding or the instruction is refused, and where no request is left. No instruction stops with a fault. -/
def Obligations.StepRunsTheDecodedRequest : Prop :=
  (∀ (s : State) (r : Request) (rest : List Request) (i : Instr),
    s.requests = r :: rest → decode r = .ok i →
    (∀ t, exec i s = .next t → step s = .next { t with pc := t.pc + 1, requests := rest }) ∧
    (∀ q, exec i s = .refused q → step s = .refused q)) ∧
  (∀ (i : Instr) (s : State) (f : Fault), exec i s ≠ .fault f) ∧
  (∀ (s : State) (r : Request) (rest : List Request) (e : DecodeError),
    s.requests = r :: rest → decode r = .error e → step s = .refused (.undecodable e)) ∧
  (∀ s : State, s.requests = [] → step s = .fault .runEnded)

/-- 10_state.md R22: a request that succeeds or that raises moves `pc` on by one, and requests run in the order issued;
no operation sets `pc` to anything else. -/
def Obligations.RequestIndexAdvancesByOne : Prop :=
  ∀ s t : State, step s = .next t → t.pc = s.pc + 1 ∧ ∃ r, s.requests = r :: t.requests

/-! ## Reset and construct -/

/-- 10_state.md R34, 70_reset_and_hazards.md R200: the values right after a successful `construct()`. -/
def Obligations.ResetStateValues : Prop :=
  State.reset.bound = true ∧ State.reset.dc = .low ∧ State.reset.rst = .high ∧
  State.reset.handle = ⟨0, 0, 1, 2, 64, 128⟩ ∧ State.reset.packed = none ∧ State.reset.trace = [] ∧
  State.reset.faults = [] ∧ State.reset.pc = 1 ∧ (∀ x y, State.reset.fb.read x y = 0) ∧
  step { State.start with requests := [.hostReq 0 []] } = .next State.reset

/-- 40_lifecycle.md R110: `construct` on an unbound block whose bus and lines can be claimed at this attempt completes. The
list that stands for `BIND_OK`, and the counter of attempts, are the model's own (log 7). -/
def Obligations.ConstructBindsTheBlock : Prop :=
  ∀ (s : State) (busIndex deviceIndex dcLine resetLine : Nat),
    s.bound = false → (s.attempts, busIndex, deviceIndex, dcLine, resetLine) ∉ s.bindDenied →
    ∃ t, exec (.construct busIndex deviceIndex dcLine resetLine 64 128) s = .next t ∧
      (∀ x y, t.fb.read x y = 0) ∧
      t = { s with
        bound := true, handle := ⟨busIndex, deviceIndex, dcLine, resetLine, 64, 128⟩, dc := .low, rst := .high,
        fb := t.fb, trace := [], packed := none, calls := 0, attempts := s.attempts + 1,
        reply := some .success }

/-- 40_lifecycle.md R110, 60_exceptions.md R171: where `construct` fails or has no meaning. The list that stands for
`BIND_OK`, and the counter of attempts, are the model's own (log 7). -/
def Obligations.ConstructFailsOrIsRefused : Prop :=
  (∀ (s : State) (busIndex deviceIndex dcLine resetLine : Nat),
    s.bound = false → (s.attempts, busIndex, deviceIndex, dcLine, resetLine) ∈ s.bindDenied →
    exec (.construct busIndex deviceIndex dcLine resetLine 64 128) s = .next { s with
      faults := s.faults ++ [.configuration busIndex deviceIndex dcLine resetLine], attempts := s.attempts + 1,
      reply := some (.error .configuration) }) ∧
  (∀ (s : State) (busIndex deviceIndex dcLine resetLine rows cols : Nat), s.bound = true →
    exec (.construct busIndex deviceIndex dcLine resetLine rows cols) s = .refused .alreadyBound) ∧
  (∀ (s : State) (busIndex deviceIndex dcLine resetLine rows cols : Nat), s.bound = false →
    ¬ (rows = 64 ∧ cols = 128) →
    exec (.construct busIndex deviceIndex dcLine resetLine rows cols) s = .refused .geometry)

/-- 40_lifecycle.md R110, 60_exceptions.md R178: "a `construct` after a failed `construct` is a fresh attempt and is
allowed": with the same identifiers it binds the block if the environment's verdict has changed. The list that stands for
`BIND_OK`, and the counter of attempts, are the model's own (log 7). -/
def Obligations.ConstructRetryIsAFreshAttempt : Prop :=
  ∀ (s : State) (busIndex deviceIndex dcLine resetLine : Nat), s.bound = false →
    (s.attempts, busIndex, deviceIndex, dcLine, resetLine) ∈ s.bindDenied →
    (s.attempts + 1, busIndex, deviceIndex, dcLine, resetLine) ∉ s.bindDenied →
    ∃ t u, exec (.construct busIndex deviceIndex dcLine resetLine 64 128) s = .next t ∧ t.bound = false ∧
      exec (.construct busIndex deviceIndex dcLine resetLine 64 128) t = .next u ∧ u.bound = true ∧
      u.handle = ⟨busIndex, deviceIndex, dcLine, resetLine, 64, 128⟩ ∧
      u.faults = s.faults ++ [.configuration busIndex deviceIndex dcLine resetLine]

/-- 10_state.md R31: while the block is unbound every request but `construct` is refused. -/
def Obligations.UnboundRefusesAllButConstruct : Prop :=
  ∀ (i : Instr) (s : State), s.bound = false → opClass i ≠ .constructs → exec i s = .refused .unbound

/-- 40_lifecycle.md R111: one LOW pulse on the reset line, and nothing of the block is reset. -/
def Obligations.ResetSendsOneLowPulse : Prop :=
  ∀ s : State, s.bound = true → s.healthy 2 = true →
    exec .reset s = .next { s with
      trace := s.trace ++ [.setLine .reset .low, .delay 10, .setLine .reset .high],
      rst := .high, calls := s.calls + 2, reply := some .success }

/-- 40_lifecycle.md R111, 00_scope.md R11: where `reset` stops when the transport fails; the latch then holds one of its
old level and the level asked for. -/
def Obligations.ResetStopsAtTheFailingLine : Prop :=
  ∀ s : State, s.bound = true →
    (s.firstFailure 0 = true → ∃ v, (v = s.rst ∨ v = .low) ∧
      exec .reset s = .next { s with
        trace := s.trace ++ [.failed (.setLine .reset .low)], rst := v,
        faults := s.faults ++ [.transport (.setLine .reset .low)], reply := some (.error .transport),
        calls := s.calls + 1, draws := s.draws + 1 }) ∧
    (s.firstFailure 1 = true → ∃ v, (v = .low ∨ v = .high) ∧
      exec .reset s = .next { s with
        trace := s.trace ++ [.setLine .reset .low, .delay 10, .failed (.setLine .reset .high)], rst := v,
        faults := s.faults ++ [.transport (.setLine .reset .high)], reply := some (.error .transport),
        calls := s.calls + 2, draws := s.draws + 1 })

/-! ## Framing -/

/-- 41_framing.md R120: the three events of a `command` on bytes, D/C HIGH after it whatever it was, nothing else. -/
def Obligations.CommandSendsOneBurstUnderLow : Prop :=
  ∀ (s : State) (o : Byte) (p : List Byte), s.bound = true → s.healthy 3 = true →
    exec (.command (byteToInt o) (p.map byteToInt)) s = .next { s with
      trace := s.trace ++ [.setLine .dc .low, .write (o :: p), .setLine .dc .high],
      dc := .high, calls := s.calls + 3, reply := some .success }

/-- 41_framing.md R121: the three events of a `sendData` on bytes (an empty list too), D/C LOW after it. -/
def Obligations.SendDataSendsOneBurstUnderHigh : Prop :=
  ∀ (s : State) (bs : List Byte), s.bound = true → s.healthy 3 = true →
    exec (.sendData (bs.map byteToInt)) s = .next { s with
      trace := s.trace ++ [.setLine .dc .high, .write bs, .setLine .dc .low],
      dc := .low, calls := s.calls + 3, reply := some .success }

/-- 41_framing.md R120, R121, 60_exceptions.md R174: a value that is no byte raises `ContractViolation` before any
transport call, whatever the transport would do. Which of several such values is recorded is the model's free value
(log 11). -/
def Obligations.NonBytesRaiseContractViolation : Prop :=
  ∀ (s : State) (i : Instr) (op : HostOp) (vs : List Int), s.bound = true →
    ((∃ o p, i = .command o p ∧ op = .command ∧ vs = o :: p) ∨ (i = .sendData vs ∧ op = .sendData)) →
    (∃ v ∈ vs, ¬ (0 ≤ v ∧ v ≤ 255)) →
    ∃ v ∈ vs, ¬ (0 ≤ v ∧ v ≤ 255) ∧
      exec i s = .next { s with
        faults := s.faults ++ [.contractByte op v], reply := some (.error .contract), draws := s.draws + 1 }

/-- 41_framing.md R127: where `command` and `sendData` stop when the first, the second or the third of their calls fails,
and what D/C holds then. -/
def Obligations.FramingStopsAtTheFailingCall : Prop :=
  ∀ (s : State) (i : Instr) (v : Level) (bs : List Byte), s.bound = true →
    ((∃ o p, i = .command (byteToInt o) (p.map byteToInt) ∧ v = .low ∧ bs = o :: p) ∨
      (i = .sendData (bs.map byteToInt) ∧ v = .high)) →
    (s.firstFailure 0 = true → ∃ d, (d = s.dc ∨ d = v) ∧
      exec i s = .next { s with
        trace := s.trace ++ [.failed (.setLine .dc v)], dc := d,
        faults := s.faults ++ [.transport (.setLine .dc v)], reply := some (.error .transport),
        calls := s.calls + 1, draws := s.draws + 1 }) ∧
    (s.firstFailure 1 = true →
      exec i s = .next { s with
        trace := s.trace ++ [.setLine .dc v, .failed (.write bs)], dc := v,
        faults := s.faults ++ [.transport (.write bs)], reply := some (.error .transport),
        calls := s.calls + 2 }) ∧
    (s.firstFailure 2 = true → ∃ d, (d = v ∨ d = v.flip) ∧
      exec i s = .next { s with
        trace := s.trace ++ [.setLine .dc v, .write bs, .failed (.setLine .dc v.flip)], dc := d,
        faults := s.faults ++ [.transport (.setLine .dc v.flip)], reply := some (.error .transport),
        calls := s.calls + 3, draws := s.draws + 1 })

/-! ## Control -/

/-- 42_control.md R136: the events of a successful `initialize`, for every table and every window sequence, and the bytes
they write. -/
def Obligations.InitialiseReplaysTableThenWindow : Prop :=
  ∀ (s : State) (m : VccMode), s.bound = true →
    s.healthy (2 + 3 * ((s.params.initTable m).entries.length + s.params.windowResetSeq.length)) = true →
    ∃ ev, exec (.initialise m) s = .next { s with
        trace := s.trace ++ ev, dc := .high, rst := .high,
        calls := s.calls + (2 + 3 * ((s.params.initTable m).entries.length + s.params.windowResetSeq.length)),
        reply := some .success } ∧
      ev = [.delay 1, .setLine .reset .low, .delay 10, .setLine .reset .high] ++
        replayEvents (s.params.initTable m).entries ++ replayEvents s.params.windowResetSeq ∧
      (writes ev).flatten = replayBytes (s.params.initTable m).entries ++ replayBytes s.params.windowResetSeq

/-- 42_control.md R133: 0xA4 for on, 0xA6 for off, one single-byte command each time. -/
def Obligations.SetDisplayPowerSendsA4OrA6 : Prop :=
  ∀ (s : State) (on : Bool), s.bound = true → s.healthy 3 = true →
    exec (.setDisplayPower on) s = .next { s with
      trace := s.trace ++ [.setLine .dc .low, .write [if on then 0xA4 else 0xA6], .setLine .dc .high],
      dc := .high, calls := s.calls + 3, reply := some .success }

/-- 42_control.md R134, 10_state.md R38: one command burst for each entry of `WINDOW_RESET_SEQ`; D/C HIGH after it unless
the sequence is empty; with the default sequence, the six events. -/
def Obligations.ResetAddressWindowReplaysItsSequence : Prop :=
  ∀ s : State, s.bound = true → s.healthy (3 * s.params.windowResetSeq.length) = true →
    exec .resetAddressWindow s = .next { s with
      trace := s.trace ++ replayEvents s.params.windowResetSeq,
      dc := if s.params.windowResetSeq = [] then s.dc else .high,
      calls := s.calls + 3 * s.params.windowResetSeq.length, reply := some .success } ∧
    (s.params.windowResetSeq = [(0x15, [0x00, 0x3F]), (0x75, [0x00, 0x3F])] →
      replayEvents s.params.windowResetSeq =
        [.setLine .dc .low, .write [0x15, 0x00, 0x3F], .setLine .dc .high,
         .setLine .dc .low, .write [0x75, 0x00, 0x3F], .setLine .dc .high])

/-! ## Stores -/

/-- 43_pixel_store.md R140, R142: an in-range `setPixel` stores `v mod 16` in its cell and leaves every other cell and
everything else as it was. -/
def Obligations.SetPixelStoresOneCell : Prop :=
  ∀ (s : State) (x y : Nat) (v : Int), s.bound = true → x < 128 → y < 64 →
    (s.params.intensityPolicy = .mask ∨ (0 ≤ v ∧ v ≤ 15)) →
    ∃ t, exec (.setPixel x y v) s = .next t ∧
      ((t.fb.read x y).toNat : Int) = v % 16 ∧
      (∀ a b, (a, b) ≠ (x, y) → t.fb.read a b = s.fb.read a b) ∧
      t = { s with fb := t.fb, reply := some .success }

/-- 43_pixel_store.md R141, R142: an in-range `updateRegion` stores its run along one row and leaves every other cell and
everything else as it was. -/
def Obligations.UpdateRegionStoresOneRun : Prop :=
  ∀ (s : State) (x y : Nat) (vs : List Int), s.bound = true → x + vs.length ≤ 128 → y < 64 →
    (s.params.intensityPolicy = .mask ∨ ∀ v ∈ vs, 0 ≤ v ∧ v ≤ 15) →
    ∃ t, exec (.updateRegion x y vs) s = .next t ∧
      (∀ k (h : k < vs.length), ((t.fb.read (x + k) y).toNat : Int) = vs[k] % 16) ∧
      (∀ a b, ¬ (b = y ∧ x ≤ a ∧ a < x + vs.length) → t.fb.read a b = s.fb.read a b) ∧
      t = { s with fb := t.fb, reply := some .success }

/-- 43_pixel_store.md R143: no wraparound. -/
def Obligations.UpdateRegionNeverWraps : Prop :=
  ∀ (s t : State) (sx sy : Int) (vs : List Int),
    exec (.updateRegion sx sy vs) s = .next t → t.reply = some .success →
    ∀ x y : Nat,
      (t.fb.read x y ≠ s.fb.read x y → (y : Int) = sy ∧ sx ≤ x ∧ (x : Int) < sx + vs.length) ∧
      (∀ k (h : k < vs.length), (y : Int) = sy → (x : Int) = sx + k → t.fb.read x y = storeValue vs[k])

/-- 43_pixel_store.md R140, R141, 60_exceptions.md R173, R182: coordinates out of range, negative ones among them, raise
`BoundsError` before any store and whatever the intensities are. -/
def Obligations.OutOfRangeStoresRaiseBoundsError : Prop :=
  (∀ (s : State) (x y v : Int), s.bound = true → ¬ (0 ≤ x ∧ x < 128 ∧ 0 ≤ y ∧ y < 64) →
    exec (.setPixel x y v) s = .next { s with
      faults := s.faults ++ [.boundsPixel x y], reply := some (.error .bounds) }) ∧
  (∀ (s : State) (x y : Int) (vs : List Int), s.bound = true →
    ¬ (0 ≤ x ∧ x + vs.length ≤ 128 ∧ 0 ≤ y ∧ y < 64) →
    exec (.updateRegion x y vs) s = .next { s with
      faults := s.faults ++ [.boundsRegion x y vs.length], reply := some (.error .bounds) })

/-- 43_pixel_store.md R142, R141: under the alternative policy `REJECT` an intensity outside 0..15 raises
`ContractViolation` before any store. Which of several is recorded is the model's free value (log 11). -/
def Obligations.RejectedIntensitiesRaiseContractViolation : Prop :=
  ∀ (s : State) (i : Instr) (op : HostOp) (vs : List Int), s.bound = true →
    s.params.intensityPolicy = .reject →
    ((∃ x y v : Int, 0 ≤ x ∧ x < 128 ∧ 0 ≤ y ∧ y < 64 ∧ i = .setPixel x y v ∧ op = .setPixel ∧ vs = [v]) ∨
      (∃ x y : Int, 0 ≤ x ∧ x + vs.length ≤ 128 ∧ 0 ≤ y ∧ y < 64 ∧ i = .updateRegion x y vs ∧
        op = .updateRegion)) →
    (∃ v ∈ vs, ¬ (0 ≤ v ∧ v ≤ 15)) →
    ∃ v ∈ vs, ¬ (0 ≤ v ∧ v ≤ 15) ∧
      exec i s = .next { s with
        faults := s.faults ++ [.contractIntensity op v], reply := some (.error .contract), draws := s.draws + 1 }

/-- 20_memory.md R50, R60, 43_pixel_store.md R144: reading a cell after a write, and the canonical form of the
framebuffer's list, which is the model's own choice (log 13). -/
def Obligations.FramebufferReadAfterWrite : Prop :=
  (∀ (m : Memory) (x y a b : Nat) (v : Nibble),
    (m.write x y v).read a b = if (a, b) = (x, y) then v else m.read a b) ∧
  (∀ (m : Memory) (x y : Nat) (v : Nibble), m.wf = true → x < 128 → y < 64 → (m.write x y v).wf = true)

/-- 43_pixel_store.md R144, 10_state.md R24: the host's read-back gives the cell in range, and a bounds error outside. -/
def Obligations.ReadBackSeesTheLastStore : Prop :=
  (∀ (s t : State) (x y v : Int), exec (.setPixel x y v) s = .next t → t.reply = some .success →
    readBack t x y = .value (storeValue v)) ∧
  (∀ (s : State) (x y : Nat), s.bound = true → x < 128 → y < 64 → readBack s x y = .value (s.fb.read x y)) ∧
  (∀ (s : State) (x y : Int), s.bound = true → ¬ (0 ≤ x ∧ x < 128 ∧ 0 ≤ y ∧ y < 64) → readBack s x y = .bounds x y)

/-! ## The packing engine -/

/-- 44_flush_packing.md R150, R152: the 192 events of a successful `flush`, and that it changes nothing else. -/
def Obligations.FlushSendsSixtyFourColumns : Prop :=
  ∀ s : State, s.bound = true → s.healthy 192 = true →
    exec .flush s = .next { s with
      trace := s.trace ++ (List.range 64).flatMap (fun i =>
        [.setLine .dc .high, .write ((List.range 64).map fun y => pack (s.fb.read (2 * i) y) (s.fb.read (2 * i + 1) y)),
         .setLine .dc .low]),
      dc := .low, packed := none, calls := s.calls + 192, reply := some .success }

/-- 44_flush_packing.md R157: the framebuffer is recovered from the bursts of a successful `flush`. -/
def Obligations.FlushUnpacksToTheFramebuffer : Prop :=
  ∀ s t : State, exec .flush s = .next t → t.reply = some .success →
    ∃ ev, t.trace = s.trace ++ ev ∧ (writes ev).length = 64 ∧
      ∀ x y, x < 128 → y < 64 → ∃ burst byte, (writes ev)[x / 2]? = some burst ∧ burst[y]? = some byte ∧
        s.fb.read x y = if x % 2 = 0 then highNibble byte else lowNibble byte

/-- 44_flush_packing.md R154: the totals of one successful `flush`. -/
def Obligations.FlushTotals : Prop :=
  ∀ s t : State, exec .flush s = .next t → t.reply = some .success →
    ∃ ev, t.trace = s.trace ++ ev ∧ (writes ev).length = 64 ∧ (∀ b ∈ writes ev, b.length = 64) ∧
      (writes ev).flatten.length = 4096 ∧
      lineEvents ev = (List.replicate 64 [(Line.dc, Level.high), (Line.dc, Level.low)]).flatten ∧
      delays ev = [] ∧ failedCalls ev = []

/-- 44_flush_packing.md R153: `flush` is pure, after success and after an error alike, and idempotent; its events are a
function of the framebuffer alone, and D/C is LOW after it. -/
def Obligations.FlushIsIdempotent : Prop :=
  (∀ s t : State, exec .flush s = .next t → t.fb = s.fb ∧ t.rst = s.rst ∧ t.handle = s.handle) ∧
  (∀ s t s' t' : State, exec .flush s = .next t → t.reply = some .success →
    exec .flush s' = .next t' → t'.reply = some .success → s'.fb = s.fb →
    t.dc = .low ∧ t'.dc = .low ∧ ∃ ev, t.trace = s.trace ++ ev ∧ t'.trace = s'.trace ++ ev)

/-- 44_flush_packing.md R158: a `flush` whose first failing call is call `k` of burst `j`. -/
def Obligations.FlushStopsAtTheFailingBurst : Prop :=
  ∀ (s : State) (j k : Nat), s.bound = true → j < 64 → k < 3 → s.firstFailure (3 * j + k) = true →
    ∃ c d, [Call.setLine .dc .high, .write (packedColumn s.fb j), .setLine .dc .low][k]? = some c ∧
      (k = 0 → (d = .high ∨ d = if j = 0 then s.dc else .low)) ∧ (k = 1 → d = .high) ∧
      exec .flush s = .next { s with
        trace := s.trace ++ ((List.range j).flatMap (fun i => dataEvents (packedColumn s.fb i)) ++
          (dataEvents (packedColumn s.fb j)).take k ++ [.failed c]),
        dc := d, packed := none, faults := s.faults ++ [.transport c], reply := some (.error .transport),
        calls := s.calls + (3 * j + k + 1), draws := s.draws + if k = 1 then 0 else 1 }

/-! ## The wire rows -/

/-- 45_wire_opcodes.md R160 to R167: what the block does for each opcode the source names is one command burst beginning
with it. That a burst is handed over as a request is the model's choice (log 2). -/
def Obligations.WireOpcodesSendTheirBurst : Prop :=
  ∀ (s : State) (p : List Byte) (i : Instr) (o : Byte), s.bound = true → s.healthy 3 = true →
    (i, o) ∈ [(Instr.wire15 p, 0x15), (.wire24 p, 0x24), (.wire75 p, 0x75), (.wire81 p, 0x81),
      (.wireA4 p, 0xA4), (.wireA6 p, 0xA6), (.wireAE p, 0xAE), (.wireAF p, 0xAF)] →
    exec i s = .next { s with
      trace := s.trace ++ [.setLine .dc .low, .write (o :: p), .setLine .dc .high],
      dc := .high, calls := s.calls + 3, reply := some .success }

/-- 30_encoding.md R85, 45_wire_opcodes.md R169: a packed pixel byte is sent under D/C HIGH, even x in the high nibble.
That it is handed over as a burst of its own is the model's choice (log 2). -/
def Obligations.PixelPairIsSentAsData : Prop :=
  ∀ (s : State) (a b : Nibble), s.bound = true → s.healthy 3 = true →
    ∃ byte : Byte, byte.toNat = 16 * a.toNat + b.toNat ∧
      exec (.pixPair a b) s = .next { s with
        trace := s.trace ++ [.setLine .dc .high, .write [byte], .setLine .dc .low],
        dc := .low, calls := s.calls + 3, reply := some .success }

/-- 45_wire_opcodes.md R160 to R169, 30_encoding.md R93: each wire row is the `command` or `sendData` call with its bytes,
in every state and whatever the transport does. -/
def Obligations.WireRowsAreCommandOrSendData : Prop :=
  (∀ (s : State) (p : List Byte) (i : Instr) (o : Byte),
    (i, o) ∈ [(Instr.wire15 p, 0x15), (.wire24 p, 0x24), (.wire75 p, 0x75), (.wire81 p, 0x81),
      (.wireA4 p, 0xA4), (.wireA6 p, 0xA6), (.wireAE p, 0xAE), (.wireAF p, 0xAF)] →
    exec i s = exec (.command (byteToInt o) (p.map byteToInt)) s) ∧
  (∀ (s : State) (a b : Nibble), exec (.pixPair a b) s = exec (.sendData [byteToInt (pack a b)]) s)

/-! ## Expansions -/

/-- 30_encoding.md R93: `initialize`, `setDisplayPower`, `resetAddressWindow` and `flush` are the calls they expand to, in
order, stopping at the first error, in every environment. -/
def Obligations.OperationsAreTheirExpansions : Prop :=
  (∀ (s : State) (on : Bool), exec (.setDisplayPower on) s = exec (.command (if on then 0xA4 else 0xA6) []) s) ∧
  (∀ s : State, s.bound = true →
    exec .resetAddressWindow s = execAll (s.params.windowResetSeq.map entryCommand) s) ∧
  (∀ (s : State) (m : VccMode), s.bound = true →
    exec (.initialise m) s =
      execAll (.reset :: (s.params.initTable m).entries.map entryCommand ++ [.resetAddressWindow])
        { s with trace := s.trace ++ [.delay 1] }) ∧
  (∀ s : State, s.bound = true → s.packed = none →
    exec .flush s = execAll ((List.range 64).map fun i => .sendData ((packedColumn s.fb i).map byteToInt)) s)

/-- 30_encoding.md R93: `setPixel(x, y, v)` has the effect on the framebuffer and the error kinds of
`updateRegion(x, y, [v])`; the records name their own operation (60_exceptions.md R170). -/
def Obligations.SetPixelIsAOneCellRun : Prop :=
  ∀ (s : State) (x y v : Int), s.bound = true →
    ∃ t u, exec (.setPixel x y v) s = .next t ∧ exec (.updateRegion x y [v]) s = .next u ∧
      t = { u with faults := t.faults } ∧ t.faults.map ErrorRecord.kind = u.faults.map ErrorRecord.kind

/-! ## Every operation: frames, errors, the transport -/

/-- 10_state.md R24, R28, R30, R37, R38: what no operation but `construct` changes, and which operations change the
framebuffer, the latches and the trace. Stated of every next state, after success and after an error. -/
def Obligations.FrameOfEveryOperation : Prop :=
  ∀ (i : Instr) (s t : State), exec i s = .next t → opClass i ≠ .constructs →
    t.bound = true ∧ s.bound = true ∧ t.handle = s.handle ∧ t.attempts = s.attempts ∧
    (i ≠ .flush → t.packed = s.packed) ∧ (i = .flush → t.packed = none) ∧
    (opClass i ≠ .stores → ∀ x y, t.fb.read x y = s.fb.read x y) ∧
    (opClass i = .stores → t.trace = s.trace ∧ t.calls = s.calls) ∧
    (opClass i ∈ [.stores, .sendsCommands, .sendsData] → t.rst = s.rst) ∧
    (opClass i ∈ [.stores, .pulsesReset] → t.dc = s.dc) ∧
    (∃ ev, t.trace = s.trace ++ ev)

/-- 10_state.md R22, 20_memory.md R65, 70_reset_and_hazards.md R215, 60_exceptions.md R178: no operation writes the request
queue, the request index, the parameters or the environment's verdicts. -/
def Obligations.OperationsLeaveProgramAndParameters : Prop :=
  ∀ (i : Instr) (s t : State), exec i s = .next t →
    t.pc = s.pc ∧ t.requests = s.requests ∧ t.params = s.params ∧ t.failAt = s.failAt ∧ t.bindDenied = s.bindDenied

/-- 60_exceptions.md R175, R179, R183: a request succeeds and records nothing, or raises exactly one error, which the
matrix allows its operation, whose record is appended to FAULTS and whose kind the host gets. -/
def Obligations.ErrorsAreRecordedOnceAndByTheMatrix : Prop :=
  ∀ (i : Instr) (s t : State), exec i s = .next t →
    (t.reply = some .success ∧ t.faults = s.faults) ∨
    ∃ e, t.faults = s.faults ++ [e] ∧ t.reply = some (.error e.kind) ∧
      canRaise i s.params.intensityPolicy e.kind = true

/-- 60_exceptions.md R177: after a `BoundsError` or a `ContractViolation` the state is the state before the request except
for FAULTS, the reply to the host and the model's counter of free values. -/
def Obligations.BoundsAndContractErrorsArePrecise : Prop :=
  ∀ (i : Instr) (s t : State), exec i s = .next t →
    (t.reply = some (.error .bounds) ∨ t.reply = some (.error .contract)) →
    t = { s with faults := t.faults, reply := t.reply, draws := t.draws }

/-- 60_exceptions.md R172, R177, R178: an operation stops at its first call whose verdict is "fail", and raises
`TransportError` exactly if there is one. -/
def Obligations.TransportErrorsFollowTheVerdicts : Prop :=
  ∀ (i : Instr) (s t : State), exec i s = .next t → opClass i ≠ .constructs →
    s.calls ≤ t.calls ∧
    (∀ n, s.calls ≤ n → n + 1 < t.calls → n ∉ s.failAt) ∧
    (t.reply = some (.error .transport) ↔ s.calls < t.calls ∧ t.calls - 1 ∈ s.failAt)

/-- 10_state.md R38: the events appended by an operation that succeeds, counted. The table there has no wire rows: each
counts as the `command` or `sendData` call it is (45_wire_opcodes.md R160 to R169, log 2). -/
def Obligations.EventCountsOfSuccess : Prop :=
  ∀ (i : Instr) (s t : State), exec i s = .next t → t.reply = some .success → opClass i ≠ .constructs →
    t.trace.length = s.trace.length + eventCount i s.params

/-- 41_framing.md R126, 10_state.md R38: the resting level of D/C after an operation that succeeds. The table there has no
wire rows: each leaves D/C as the `command` or `sendData` call it is does (45_wire_opcodes.md R160 to R169, log 2). -/
def Obligations.RestingLevelOfDc : Prop :=
  ∀ (i : Instr) (s t : State), exec i s = .next t → t.reply = some .success → t.dc = restingDc i s

/-- 41_framing.md R124: the level in force at every burst of an operation without a `Failed` event: LOW before and HIGH
after each burst of a command, HIGH before and LOW after each burst of data. -/
def Obligations.EveryBurstUnderItsLevel : Prop :=
  ∀ (i : Instr) (s t : State), exec i s = .next t → opClass i ≠ .constructs → failedCalls t.trace = [] →
    ∃ ev, t.trace = s.trace ++ ev ∧ framed (opClass i).burstLevels ev = true

/-- 41_framing.md R124, R125: a trace without a `Failed` event stays a sequence of bracketed bursts, reset-line events and
delays, however the host interleaves its requests. -/
def Obligations.StepKeepsTheTraceFramed : Prop :=
  ∀ s t : State, step s = .next t → (failedCalls s.trace = [] → framed [.low, .high] s.trace = true) →
    failedCalls t.trace = [] → framed [.low, .high] t.trace = true

/-- 10_state.md R28, 20_memory.md R50, 92_eei_decisions.md D30: the device handle is opaque; no operation after
`construct` lets it show. -/
def Obligations.HandleIsNeverInterpreted : Prop :=
  ∀ (i : Instr) (s : State) (h : Handle), opClass i ≠ .constructs →
    exec i (s.withHandle h) = outcomeWithHandle h (exec i s)

/-- 10_state.md R23, R26, R27: the latches are outputs only; no operation's events, stores or errors depend on them. -/
def Obligations.LatchesAreNeverRead : Prop :=
  ∀ (i : Instr) (s t : State) (dc rst : Level), exec i s = .next t →
    ∃ u, exec i (s.withLatches dc rst) = .next u ∧
      t = { u with dc := t.dc, rst := t.rst }

/-! ## The invariant -/

/-- 10_state.md R34: the invariant holds right after reset. -/
def Obligations.InvariantAtReset : Prop := Inv State.reset

/-- 10_state.md R25, R26, R27, R29, 20_memory.md R60, 60_exceptions.md R177, R178: every step keeps the invariant. -/
def Obligations.StepKeepsTheInvariant : Prop :=
  ∀ s t : State, Inv s → step s = .next t → Inv t
end

