-- ==== Sys2Proof/Laws/Memory.lean ====
section
/-! SUPPORT. The framebuffer: reading after writing, and the canonical form every write keeps. -/

namespace Sys2Proof.Machine

@[simp] theorem Memory.read_nil (x y : Nat) : Memory.read [] x y = 0 := rfl

theorem Memory.read_erase (m : Memory) (x y a b : Nat) :
    (m.erase x y).read a b = if (a, b) = (x, y) then Memory.blank else m.read a b := by
  induction m with
  | nil => simp [Memory.erase, Memory.read]
  | cons c rest ih =>
    unfold Memory.erase at ih ⊢
    by_cases hc : c.1 = (x, y)
    · simp only [List.filter_cons, hc, decide_true, Bool.not_true, Bool.false_eq_true, if_false]
      rw [ih]
      by_cases hab : (a, b) = (x, y)
      · simp [hab]
      · have : ¬ c.1 = (a, b) := fun h => hab (h.symm.trans hc)
        simp [Memory.read, hab, this]
    · simp only [List.filter_cons, hc, decide_false, Bool.not_false, if_true, Memory.read]
      rw [ih]
      by_cases hca : c.1 = (a, b)
      · have : ¬ (a, b) = (x, y) := fun h => hc (hca.trans h)
        simp [hca, this]
      · simp [hca]

theorem Memory.read_insert (c : Cell) (m : Memory) (h : ∀ d ∈ m, d.1 ≠ c.1) (a b : Nat) :
    (Memory.insert c m).read a b = if c.1 = (a, b) then c.2 else m.read a b := by
  induction m with
  | nil => simp [Memory.insert, Memory.read]
  | cons d rest ih =>
    have hd : d.1 ≠ c.1 := h d (by simp)
    have hr := ih (fun e he => h e (by simp [he]))
    unfold Memory.insert
    split
    · simp [Memory.read]
    · simp only [Memory.read, hr]
      by_cases hda : d.1 = (a, b)
      · have : ¬ c.1 = (a, b) := fun h => hd (hda.trans h.symm)
        simp [hda, this]
      · simp [hda]

theorem Memory.erase_ne (m : Memory) (x y : Nat) : ∀ d ∈ m.erase x y, d.1 ≠ (x, y) := by
  intro d hd
  simpa using (List.mem_filter.1 hd).2

/-- What a write does to every read (R10): the cell written holds the value, all others are as before. -/
theorem Memory.read_write (m : Memory) (x y : Nat) (v : Nibble) (a b : Nat) :
    (m.write x y v).read a b = if (a, b) = (x, y) then v else m.read a b := by
  unfold Memory.write
  split
  · next hv => rw [Memory.read_erase, hv]
  · rw [Memory.read_insert _ _ (Memory.erase_ne m x y), Memory.read_erase]
    by_cases h : (a, b) = (x, y)
    · simp [h]
    · have : ¬ (x, y) = (a, b) := fun e => h e.symm
      simp [h, this]

/-- What a run does to every read (R143). -/
theorem Memory.read_writeRun (vs : List Nibble) (m : Memory) (x y a b : Nat) :
    (m.writeRun x y vs).read a b =
      if b = y ∧ x ≤ a ∧ a < x + vs.length then vs.getD (a - x) 0 else m.read a b := by
  induction vs generalizing m x with
  | nil =>
    have : ¬ (b = y ∧ x ≤ a ∧ a < x + ([] : List Nibble).length) := by
      simp only [List.length_nil]; omega
    rw [if_neg this]
    rfl
  | cons v rest ih =>
    rw [Memory.writeRun, ih, Memory.read_write]
    by_cases hb : b = y
    · subst hb
      by_cases ha : a = x
      · subst ha
        simp
      · by_cases h : x + 1 ≤ a ∧ a < x + 1 + rest.length
        · have e : a - x = (a - (x + 1)) + 1 := by omega
          have h2 : x ≤ a ∧ a < x + (v :: rest).length := by simp only [List.length_cons]; omega
          rw [if_pos ⟨rfl, h⟩, if_pos ⟨rfl, h2⟩, e]
          simp
        · have h2 : ¬ (x ≤ a ∧ a < x + (v :: rest).length) := by simp only [List.length_cons]; omega
          have h3 : ¬ (a, b) = (x, b) := fun k => ha (congrArg Prod.fst k)
          rw [if_neg (fun k => h k.2), if_neg h3, if_neg (fun k => h2 k.2)]
    · simp [hb]

/-! ## The canonical form -/

theorem Memory.before_trans {p q r : Nat × Nat} (h1 : Memory.before p q = true) (h2 : Memory.before q r = true) :
    Memory.before p r = true := by
  simp only [Memory.before, Bool.or_eq_true, Bool.and_eq_true, decide_eq_true_eq] at *
  omega

theorem Memory.before_total {p q : Nat × Nat} (h : p ≠ q) (h1 : Memory.before p q = false) :
    Memory.before q p = true := by
  simp only [Memory.before, Bool.or_eq_true, Bool.and_eq_true, decide_eq_true_eq, Bool.or_eq_false_iff,
    Bool.and_eq_false_iff, decide_eq_false_iff_not] at *
  have : ¬ (p.1 = q.1 ∧ p.2 = q.2) := fun e => h (Prod.ext e.1 e.2)
  omega

theorem Memory.sorted_filter (m : Memory) (p : Cell → Bool) (h : Memory.sorted m = true) :
    Memory.sorted (m.filter p) = true := by
  induction m with
  | nil => rfl
  | cons c rest ih =>
    simp only [Memory.sorted, Bool.and_eq_true] at h
    simp only [List.filter_cons]
    split
    · simp only [Memory.sorted, Bool.and_eq_true, ih h.2, and_true, List.all_eq_true] at h ⊢
      intro d hd
      exact h.1 d (List.mem_filter.1 hd).1
    · exact ih h.2

theorem Memory.mem_insert (c d : Cell) (m : Memory) : d ∈ Memory.insert c m ↔ d = c ∨ d ∈ m := by
  induction m with
  | nil => simp [Memory.insert]
  | cons e rest ih =>
    unfold Memory.insert
    split
    · simp
    · simp only [List.mem_cons, ih]
      tauto

theorem Memory.sorted_insert (c : Cell) (m : Memory) (hne : ∀ d ∈ m, d.1 ≠ c.1) (h : Memory.sorted m = true) :
    Memory.sorted (Memory.insert c m) = true := by
  induction m with
  | nil => rfl
  | cons d rest ih =>
    simp only [Memory.sorted, Bool.and_eq_true, List.all_eq_true] at h
    unfold Memory.insert
    split
    · next hb =>
      simp only [Memory.sorted, Bool.and_eq_true, List.all_eq_true]
      refine ⟨?_, h⟩
      intro e he
      rcases List.mem_cons.1 he with rfl | he
      · exact hb
      · exact Memory.before_trans hb (h.1 e he)
    · next hb =>
      simp only [Memory.sorted, Bool.and_eq_true, List.all_eq_true]
      refine ⟨?_, ih (fun e he => hne e (by simp [he])) h.2⟩
      intro e he
      rcases (Memory.mem_insert c e rest).1 he with rfl | he
      · exact Memory.before_total (fun heq => hne d (by simp) heq.symm) (by simpa using hb)
      · exact h.1 e he

/-- A write inside the map of R60 keeps the canonical form. -/
theorem Memory.wf_write (m : Memory) (x y : Nat) (v : Nibble) (h : m.wf = true) (hx : x < 128) (hy : y < 64) :
    (m.write x y v).wf = true := by
  simp only [Memory.wf, Bool.and_eq_true, List.all_eq_true] at h ⊢
  have he : Memory.sorted (m.erase x y) = true := Memory.sorted_filter m _ h.1
  have ha : ∀ c ∈ m.erase x y, _ := fun c hc => h.2 c (List.mem_filter.1 hc).1
  unfold Memory.write
  split
  · exact ⟨he, ha⟩
  · next hv =>
    refine ⟨Memory.sorted_insert _ _ (Memory.erase_ne m x y) he, ?_⟩
    intro c hc
    rcases (Memory.mem_insert _ c _).1 hc with rfl | hc
    · have hv' : ¬ v = 0#4 := hv
      simp [hx, hy, hv']
    · exact ha c hc

/-- A run inside the map of R60 keeps the canonical form. -/
theorem Memory.wf_writeRun (vs : List Nibble) (m : Memory) (x y : Nat) (h : m.wf = true)
    (hx : x + vs.length ≤ 128) (hy : y < 64) : (m.writeRun x y vs).wf = true := by
  induction vs generalizing m x with
  | nil => exact h
  | cons v rest ih =>
    simp only [List.length_cons] at hx
    exact ih _ _ (Memory.wf_write m x y v h (by omega) hy) (by omega)

/-- Reset memory is in canonical form. -/
theorem Memory.wf_reset : State.reset.fb.wf = true := rfl

end Sys2Proof.Machine
end

