-- ==== Sys2Proof/Laws/State.lean ====
section
/-! SUPPORT. One lemma per field of `State` and per update of it, each true by rfl, so that no proof unfolds a record
update. -/

namespace Sys2Proof.Machine

/-! ## `State.setLatch` -/

@[simp] theorem State.setLatch_dc_dc (s : State) (v : Level) : (s.setLatch .dc v).dc = v := rfl
@[simp] theorem State.setLatch_dc_rst (s : State) (v : Level) : (s.setLatch .dc v).rst = s.rst := rfl
@[simp] theorem State.setLatch_reset_dc (s : State) (v : Level) : (s.setLatch .reset v).dc = s.dc := rfl
@[simp] theorem State.setLatch_reset_rst (s : State) (v : Level) : (s.setLatch .reset v).rst = v := rfl
@[simp] theorem State.setLatch_requests (s : State) (l : Line) (v : Level) : (s.setLatch l v).requests = s.requests := rfl
@[simp] theorem State.setLatch_pc (s : State) (l : Line) (v : Level) : (s.setLatch l v).pc = s.pc := rfl
@[simp] theorem State.setLatch_bound (s : State) (l : Line) (v : Level) : (s.setLatch l v).bound = s.bound := rfl
@[simp] theorem State.setLatch_fb (s : State) (l : Line) (v : Level) : (s.setLatch l v).fb = s.fb := rfl
@[simp] theorem State.setLatch_handle (s : State) (l : Line) (v : Level) : (s.setLatch l v).handle = s.handle := rfl
@[simp] theorem State.setLatch_packed (s : State) (l : Line) (v : Level) : (s.setLatch l v).packed = s.packed := rfl
@[simp] theorem State.setLatch_trace (s : State) (l : Line) (v : Level) : (s.setLatch l v).trace = s.trace := rfl
@[simp] theorem State.setLatch_faults (s : State) (l : Line) (v : Level) : (s.setLatch l v).faults = s.faults := rfl
@[simp] theorem State.setLatch_reply (s : State) (l : Line) (v : Level) : (s.setLatch l v).reply = s.reply := rfl
@[simp] theorem State.setLatch_params (s : State) (l : Line) (v : Level) : (s.setLatch l v).params = s.params := rfl
@[simp] theorem State.setLatch_failAt (s : State) (l : Line) (v : Level) : (s.setLatch l v).failAt = s.failAt := rfl
@[simp] theorem State.setLatch_bindDenied (s : State) (l : Line) (v : Level) : (s.setLatch l v).bindDenied = s.bindDenied := rfl
@[simp] theorem State.setLatch_attempts (s : State) (l : Line) (v : Level) : (s.setLatch l v).attempts = s.attempts := rfl
@[simp] theorem State.setLatch_calls (s : State) (l : Line) (v : Level) : (s.setLatch l v).calls = s.calls := rfl
@[simp] theorem State.setLatch_draws (s : State) (l : Line) (v : Level) : (s.setLatch l v).draws = s.draws := rfl

/-! ## `State.failLatch` -/

@[simp] theorem State.failLatch_draws (s : State) (l : Line) (v : Level) : (s.failLatch l v).draws = s.draws + 1 := rfl
@[simp] theorem State.failLatch_dc_rst (s : State) (v : Level) : (s.failLatch .dc v).rst = s.rst := rfl
@[simp] theorem State.failLatch_reset_dc (s : State) (v : Level) : (s.failLatch .reset v).dc = s.dc := rfl
@[simp] theorem State.failLatch_requests (s : State) (l : Line) (v : Level) : (s.failLatch l v).requests = s.requests := rfl
@[simp] theorem State.failLatch_pc (s : State) (l : Line) (v : Level) : (s.failLatch l v).pc = s.pc := rfl
@[simp] theorem State.failLatch_bound (s : State) (l : Line) (v : Level) : (s.failLatch l v).bound = s.bound := rfl
@[simp] theorem State.failLatch_fb (s : State) (l : Line) (v : Level) : (s.failLatch l v).fb = s.fb := rfl
@[simp] theorem State.failLatch_handle (s : State) (l : Line) (v : Level) : (s.failLatch l v).handle = s.handle := rfl
@[simp] theorem State.failLatch_packed (s : State) (l : Line) (v : Level) : (s.failLatch l v).packed = s.packed := rfl
@[simp] theorem State.failLatch_trace (s : State) (l : Line) (v : Level) : (s.failLatch l v).trace = s.trace := rfl
@[simp] theorem State.failLatch_faults (s : State) (l : Line) (v : Level) : (s.failLatch l v).faults = s.faults := rfl
@[simp] theorem State.failLatch_reply (s : State) (l : Line) (v : Level) : (s.failLatch l v).reply = s.reply := rfl
@[simp] theorem State.failLatch_params (s : State) (l : Line) (v : Level) : (s.failLatch l v).params = s.params := rfl
@[simp] theorem State.failLatch_failAt (s : State) (l : Line) (v : Level) : (s.failLatch l v).failAt = s.failAt := rfl
@[simp] theorem State.failLatch_bindDenied (s : State) (l : Line) (v : Level) : (s.failLatch l v).bindDenied = s.bindDenied := rfl
@[simp] theorem State.failLatch_attempts (s : State) (l : Line) (v : Level) : (s.failLatch l v).attempts = s.attempts := rfl
@[simp] theorem State.failLatch_calls (s : State) (l : Line) (v : Level) : (s.failLatch l v).calls = s.calls := rfl

/-! ## `State.emit` -/

@[simp] theorem State.emit_trace (s : State) (e : Event) : (s.emit e).trace = s.trace ++ [e] := rfl
@[simp] theorem State.emit_requests (s : State) (e : Event) : (s.emit e).requests = s.requests := rfl
@[simp] theorem State.emit_pc (s : State) (e : Event) : (s.emit e).pc = s.pc := rfl
@[simp] theorem State.emit_bound (s : State) (e : Event) : (s.emit e).bound = s.bound := rfl
@[simp] theorem State.emit_fb (s : State) (e : Event) : (s.emit e).fb = s.fb := rfl
@[simp] theorem State.emit_dc (s : State) (e : Event) : (s.emit e).dc = s.dc := rfl
@[simp] theorem State.emit_rst (s : State) (e : Event) : (s.emit e).rst = s.rst := rfl
@[simp] theorem State.emit_handle (s : State) (e : Event) : (s.emit e).handle = s.handle := rfl
@[simp] theorem State.emit_packed (s : State) (e : Event) : (s.emit e).packed = s.packed := rfl
@[simp] theorem State.emit_faults (s : State) (e : Event) : (s.emit e).faults = s.faults := rfl
@[simp] theorem State.emit_reply (s : State) (e : Event) : (s.emit e).reply = s.reply := rfl
@[simp] theorem State.emit_params (s : State) (e : Event) : (s.emit e).params = s.params := rfl
@[simp] theorem State.emit_failAt (s : State) (e : Event) : (s.emit e).failAt = s.failAt := rfl
@[simp] theorem State.emit_bindDenied (s : State) (e : Event) : (s.emit e).bindDenied = s.bindDenied := rfl
@[simp] theorem State.emit_attempts (s : State) (e : Event) : (s.emit e).attempts = s.attempts := rfl
@[simp] theorem State.emit_calls (s : State) (e : Event) : (s.emit e).calls = s.calls := rfl
@[simp] theorem State.emit_draws (s : State) (e : Event) : (s.emit e).draws = s.draws := rfl

/-! ## `State.countCall` -/

@[simp] theorem State.countCall_calls (s : State) : s.countCall.calls = s.calls + 1 := rfl
@[simp] theorem State.countCall_requests (s : State) : s.countCall.requests = s.requests := rfl
@[simp] theorem State.countCall_pc (s : State) : s.countCall.pc = s.pc := rfl
@[simp] theorem State.countCall_bound (s : State) : s.countCall.bound = s.bound := rfl
@[simp] theorem State.countCall_fb (s : State) : s.countCall.fb = s.fb := rfl
@[simp] theorem State.countCall_dc (s : State) : s.countCall.dc = s.dc := rfl
@[simp] theorem State.countCall_rst (s : State) : s.countCall.rst = s.rst := rfl
@[simp] theorem State.countCall_handle (s : State) : s.countCall.handle = s.handle := rfl
@[simp] theorem State.countCall_packed (s : State) : s.countCall.packed = s.packed := rfl
@[simp] theorem State.countCall_trace (s : State) : s.countCall.trace = s.trace := rfl
@[simp] theorem State.countCall_faults (s : State) : s.countCall.faults = s.faults := rfl
@[simp] theorem State.countCall_reply (s : State) : s.countCall.reply = s.reply := rfl
@[simp] theorem State.countCall_params (s : State) : s.countCall.params = s.params := rfl
@[simp] theorem State.countCall_failAt (s : State) : s.countCall.failAt = s.failAt := rfl
@[simp] theorem State.countCall_bindDenied (s : State) : s.countCall.bindDenied = s.bindDenied := rfl
@[simp] theorem State.countCall_attempts (s : State) : s.countCall.attempts = s.attempts := rfl
@[simp] theorem State.countCall_draws (s : State) : s.countCall.draws = s.draws := rfl

/-! ## `State.succeed` -/

@[simp] theorem State.succeed_reply (s : State) : s.succeed.reply = some .success := rfl
@[simp] theorem State.succeed_requests (s : State) : s.succeed.requests = s.requests := rfl
@[simp] theorem State.succeed_pc (s : State) : s.succeed.pc = s.pc := rfl
@[simp] theorem State.succeed_bound (s : State) : s.succeed.bound = s.bound := rfl
@[simp] theorem State.succeed_fb (s : State) : s.succeed.fb = s.fb := rfl
@[simp] theorem State.succeed_dc (s : State) : s.succeed.dc = s.dc := rfl
@[simp] theorem State.succeed_rst (s : State) : s.succeed.rst = s.rst := rfl
@[simp] theorem State.succeed_handle (s : State) : s.succeed.handle = s.handle := rfl
@[simp] theorem State.succeed_packed (s : State) : s.succeed.packed = s.packed := rfl
@[simp] theorem State.succeed_trace (s : State) : s.succeed.trace = s.trace := rfl
@[simp] theorem State.succeed_faults (s : State) : s.succeed.faults = s.faults := rfl
@[simp] theorem State.succeed_params (s : State) : s.succeed.params = s.params := rfl
@[simp] theorem State.succeed_failAt (s : State) : s.succeed.failAt = s.failAt := rfl
@[simp] theorem State.succeed_bindDenied (s : State) : s.succeed.bindDenied = s.bindDenied := rfl
@[simp] theorem State.succeed_attempts (s : State) : s.succeed.attempts = s.attempts := rfl
@[simp] theorem State.succeed_calls (s : State) : s.succeed.calls = s.calls := rfl
@[simp] theorem State.succeed_draws (s : State) : s.succeed.draws = s.draws := rfl

/-! ## `State.raise` -/

@[simp] theorem State.raise_faults (s : State) (e : ErrorRecord) : (s.raise e).faults = s.faults ++ [e] := rfl
@[simp] theorem State.raise_reply (s : State) (e : ErrorRecord) : (s.raise e).reply = some (.error e.kind) := rfl
@[simp] theorem State.raise_requests (s : State) (e : ErrorRecord) : (s.raise e).requests = s.requests := rfl
@[simp] theorem State.raise_pc (s : State) (e : ErrorRecord) : (s.raise e).pc = s.pc := rfl
@[simp] theorem State.raise_bound (s : State) (e : ErrorRecord) : (s.raise e).bound = s.bound := rfl
@[simp] theorem State.raise_fb (s : State) (e : ErrorRecord) : (s.raise e).fb = s.fb := rfl
@[simp] theorem State.raise_dc (s : State) (e : ErrorRecord) : (s.raise e).dc = s.dc := rfl
@[simp] theorem State.raise_rst (s : State) (e : ErrorRecord) : (s.raise e).rst = s.rst := rfl
@[simp] theorem State.raise_handle (s : State) (e : ErrorRecord) : (s.raise e).handle = s.handle := rfl
@[simp] theorem State.raise_packed (s : State) (e : ErrorRecord) : (s.raise e).packed = s.packed := rfl
@[simp] theorem State.raise_trace (s : State) (e : ErrorRecord) : (s.raise e).trace = s.trace := rfl
@[simp] theorem State.raise_params (s : State) (e : ErrorRecord) : (s.raise e).params = s.params := rfl
@[simp] theorem State.raise_failAt (s : State) (e : ErrorRecord) : (s.raise e).failAt = s.failAt := rfl
@[simp] theorem State.raise_bindDenied (s : State) (e : ErrorRecord) : (s.raise e).bindDenied = s.bindDenied := rfl
@[simp] theorem State.raise_attempts (s : State) (e : ErrorRecord) : (s.raise e).attempts = s.attempts := rfl
@[simp] theorem State.raise_calls (s : State) (e : ErrorRecord) : (s.raise e).calls = s.calls := rfl
@[simp] theorem State.raise_draws (s : State) (e : ErrorRecord) : (s.raise e).draws = s.draws := rfl

/-! ## `State.countAttempt` -/

@[simp] theorem State.countAttempt_attempts (s : State) : s.countAttempt.attempts = s.attempts + 1 := rfl
@[simp] theorem State.countAttempt_requests (s : State) : s.countAttempt.requests = s.requests := rfl
@[simp] theorem State.countAttempt_pc (s : State) : s.countAttempt.pc = s.pc := rfl
@[simp] theorem State.countAttempt_bound (s : State) : s.countAttempt.bound = s.bound := rfl
@[simp] theorem State.countAttempt_fb (s : State) : s.countAttempt.fb = s.fb := rfl
@[simp] theorem State.countAttempt_dc (s : State) : s.countAttempt.dc = s.dc := rfl
@[simp] theorem State.countAttempt_rst (s : State) : s.countAttempt.rst = s.rst := rfl
@[simp] theorem State.countAttempt_handle (s : State) : s.countAttempt.handle = s.handle := rfl
@[simp] theorem State.countAttempt_packed (s : State) : s.countAttempt.packed = s.packed := rfl
@[simp] theorem State.countAttempt_trace (s : State) : s.countAttempt.trace = s.trace := rfl
@[simp] theorem State.countAttempt_faults (s : State) : s.countAttempt.faults = s.faults := rfl
@[simp] theorem State.countAttempt_reply (s : State) : s.countAttempt.reply = s.reply := rfl
@[simp] theorem State.countAttempt_params (s : State) : s.countAttempt.params = s.params := rfl
@[simp] theorem State.countAttempt_failAt (s : State) : s.countAttempt.failAt = s.failAt := rfl
@[simp] theorem State.countAttempt_bindDenied (s : State) : s.countAttempt.bindDenied = s.bindDenied := rfl
@[simp] theorem State.countAttempt_calls (s : State) : s.countAttempt.calls = s.calls := rfl
@[simp] theorem State.countAttempt_draws (s : State) : s.countAttempt.draws = s.draws := rfl

/-! ## `State.constructed` -/

@[simp] theorem State.constructed_requests (s : State) (h : Handle) : (s.constructed h).requests = s.requests := rfl
@[simp] theorem State.constructed_pc (s : State) (h : Handle) : (s.constructed h).pc = s.pc := rfl
@[simp] theorem State.constructed_bound (s : State) (h : Handle) : (s.constructed h).bound = true := rfl
@[simp] theorem State.constructed_fb (s : State) (h : Handle) : (s.constructed h).fb = [] := rfl
@[simp] theorem State.constructed_dc (s : State) (h : Handle) : (s.constructed h).dc = .low := rfl
@[simp] theorem State.constructed_rst (s : State) (h : Handle) : (s.constructed h).rst = .high := rfl
@[simp] theorem State.constructed_handle (s : State) (h : Handle) : (s.constructed h).handle = h := rfl
@[simp] theorem State.constructed_packed (s : State) (h : Handle) : (s.constructed h).packed = none := rfl
@[simp] theorem State.constructed_trace (s : State) (h : Handle) : (s.constructed h).trace = [] := rfl
@[simp] theorem State.constructed_faults (s : State) (h : Handle) : (s.constructed h).faults = s.faults := rfl
@[simp] theorem State.constructed_reply (s : State) (h : Handle) : (s.constructed h).reply = some .success := rfl
@[simp] theorem State.constructed_params (s : State) (h : Handle) : (s.constructed h).params = s.params := rfl
@[simp] theorem State.constructed_failAt (s : State) (h : Handle) : (s.constructed h).failAt = s.failAt := rfl
@[simp] theorem State.constructed_bindDenied (s : State) (h : Handle) : (s.constructed h).bindDenied = s.bindDenied := rfl
@[simp] theorem State.constructed_attempts (s : State) (h : Handle) : (s.constructed h).attempts = s.attempts := rfl
@[simp] theorem State.constructed_calls (s : State) (h : Handle) : (s.constructed h).calls = 0 := rfl
@[simp] theorem State.constructed_draws (s : State) (h : Handle) : (s.constructed h).draws = s.draws := rfl

/-! ## `State.advance` -/

@[simp] theorem State.advance_pc (s : State) (rest : List Request) : (s.advance rest).pc = s.pc + 1 := rfl
@[simp] theorem State.advance_requests (s : State) (rest : List Request) : (s.advance rest).requests = rest := rfl
@[simp] theorem State.advance_bound (s : State) (rest : List Request) : (s.advance rest).bound = s.bound := rfl
@[simp] theorem State.advance_fb (s : State) (rest : List Request) : (s.advance rest).fb = s.fb := rfl
@[simp] theorem State.advance_dc (s : State) (rest : List Request) : (s.advance rest).dc = s.dc := rfl
@[simp] theorem State.advance_rst (s : State) (rest : List Request) : (s.advance rest).rst = s.rst := rfl
@[simp] theorem State.advance_handle (s : State) (rest : List Request) : (s.advance rest).handle = s.handle := rfl
@[simp] theorem State.advance_packed (s : State) (rest : List Request) : (s.advance rest).packed = s.packed := rfl
@[simp] theorem State.advance_trace (s : State) (rest : List Request) : (s.advance rest).trace = s.trace := rfl
@[simp] theorem State.advance_faults (s : State) (rest : List Request) : (s.advance rest).faults = s.faults := rfl
@[simp] theorem State.advance_reply (s : State) (rest : List Request) : (s.advance rest).reply = s.reply := rfl
@[simp] theorem State.advance_params (s : State) (rest : List Request) : (s.advance rest).params = s.params := rfl
@[simp] theorem State.advance_failAt (s : State) (rest : List Request) : (s.advance rest).failAt = s.failAt := rfl
@[simp] theorem State.advance_bindDenied (s : State) (rest : List Request) : (s.advance rest).bindDenied = s.bindDenied := rfl
@[simp] theorem State.advance_attempts (s : State) (rest : List Request) : (s.advance rest).attempts = s.attempts := rfl
@[simp] theorem State.advance_calls (s : State) (rest : List Request) : (s.advance rest).calls = s.calls := rfl
@[simp] theorem State.advance_draws (s : State) (rest : List Request) : (s.advance rest).draws = s.draws := rfl

end Sys2Proof.Machine
end

