-- ==== Sys2Proof/Laws/Transport.lean ====
section
/-! SUPPORT. What the transport primitives and scripts of them can do, said once: a script runs whole, or up to its first
failing call. -/

namespace Sys2Proof.Machine

/-- The event of an action that succeeds. -/
def Action.event : Action → Event
  | .call c => c.event
  | .delay ms => .delay ms

/-- The state after one action that succeeded. -/
def State.afterAction (s : State) : Action → State
  | .call c => s.afterCall c
  | .delay ms => s.emit (.delay ms)

/-- The state after a whole script that succeeded. -/
def State.ran (s : State) (script : List Action) : State := script.foldl State.afterAction s

/-- The number of fallible calls of a script. -/
def fallible : List Action → Nat
  | [] => 0
  | .call _ :: rest => fallible rest + 1
  | .delay _ :: rest => fallible rest

/-- The level a script leaves on a line, started at `v`. -/
def finalLevel (l : Line) (v : Level) : List Action → Level
  | [] => v
  | .call (.setLine m w) :: rest => finalLevel l (if m = l then w else v) rest
  | .call (.write _) :: rest => finalLevel l v rest
  | .delay _ :: rest => finalLevel l v rest

/-! ## One successful script -/

@[simp] theorem fallible_append (a b : List Action) : fallible (a ++ b) = fallible a + fallible b := by
  induction a with
  | nil => simp [fallible]
  | cons x xs ih => cases x <;> (simp [fallible, ih]; try omega)

@[simp] theorem finalLevel_append (l : Line) (v : Level) (a b : List Action) :
    finalLevel l v (a ++ b) = finalLevel l (finalLevel l v a) b := by
  induction a generalizing v with
  | nil => rfl
  | cons x xs ih =>
    cases x with
    | call c => cases c <;> simp [finalLevel, ih]
    | delay ms => simp [finalLevel, ih]

/-- A successful script appends its events, leaves its last levels, and moves the call ordinal; nothing else. -/
theorem State.ran_eq (s : State) (script : List Action) :
    s.ran script = { s with
      trace := s.trace ++ script.map Action.event
      dc := finalLevel .dc s.dc script
      rst := finalLevel .reset s.rst script
      calls := s.calls + fallible script } := by
  induction script generalizing s with
  | nil => simp [State.ran, finalLevel, fallible]
  | cons a rest ih =>
    have h : s.ran (a :: rest) = (s.afterAction a).ran rest := rfl
    rw [h, ih]
    cases a with
    | delay ms => simp [State.afterAction, State.emit, Action.event, finalLevel, fallible]
    | call c =>
      cases c with
      | write bytes =>
        simp [State.afterAction, State.afterCall, State.applyCall, State.countCall, State.emit, Action.event, Call.event,
          finalLevel, fallible]
        omega
      | setLine l v =>
        cases l <;>
          simp [State.afterAction, State.afterCall, State.applyCall, State.countCall, State.setLatch, State.emit,
            Action.event, Call.event, finalLevel, fallible, Nat.add_assoc, Nat.add_comm]

theorem State.ran_append (s : State) (a b : List Action) : s.ran (a ++ b) = (s.ran a).ran b := by
  simp [State.ran, List.foldl_append]

/-! ## The two ends of a script -/

theorem perform_append (a b : List Action) (s : State) :
    perform (a ++ b) s =
      match perform a s with
      | .done t => perform b t
      | .raised e t => .raised e t := by
  induction a generalizing s with
  | nil => rfl
  | cons x xs ih =>
    cases x with
    | delay ms => simp only [List.cons_append, perform]; exact ih _
    | call c =>
      simp only [List.cons_append, perform]
      cases performCall c s with
      | done t => exact ih t
      | raised e t => rfl

/-- Every way a script can end: whole, or at the first call whose verdict is "fail", with everything before it done. -/
theorem perform_cases (script : List Action) (s : State) :
    perform script s = .done (s.ran script) ∨
    ∃ before c after, script = before ++ .call c :: after ∧ perform before s = .done (s.ran before) ∧
      (s.ran before).callOk = false ∧
      perform script s = .raised (.transport c) ((s.ran before).afterFailedCall c) := by
  induction script generalizing s with
  | nil => exact .inl rfl
  | cons a rest ih =>
    cases a with
    | delay ms =>
      rcases ih (s.emit (.delay ms)) with h | ⟨before, c, after, rfl, hb, hc, hp⟩
      · exact .inl h
      · exact .inr ⟨.delay ms :: before, c, after, rfl, hb, hc, hp⟩
    | call d =>
      by_cases hd : s.callOk = true
      · rcases ih (s.afterCall d) with h | ⟨before, c, after, rfl, hb, hc, hp⟩
        · left
          simp only [perform, performCall, hd, if_true]
          exact h
        · right
          refine ⟨.call d :: before, c, after, rfl, ?_, hc, ?_⟩
          · simp only [perform, performCall, hd, if_true]
            exact hb
          · simp only [perform, performCall, hd, if_true]
            exact hp
      · right
        refine ⟨[], d, rest, rfl, rfl, by simpa [State.ran] using hd, ?_⟩
        simp [perform, performCall, hd, State.ran]

/-! ## Verdicts -/

theorem State.healthy_iff (s : State) (k : Nat) :
    s.healthy k = true ↔ ∀ n, s.calls ≤ n → n < s.calls + k → n ∉ s.failAt := by
  simp only [State.healthy, List.all_eq_true, Bool.or_eq_true, decide_eq_true_eq]
  constructor
  · intro h n h1 h2 hn
    rcases h n hn with h3 | h3 <;> omega
  · intro h n hn
    by_contra hc
    exact h n (by omega) (by omega) hn

theorem State.callOk_iff (s : State) : s.callOk = true ↔ s.calls ∉ s.failAt := by
  simp [State.callOk]

@[simp] theorem State.ran_calls (s : State) (script : List Action) :
    (s.ran script).calls = s.calls + fallible script := by rw [State.ran_eq]

@[simp] theorem State.ran_failAt (s : State) (script : List Action) : (s.ran script).failAt = s.failAt := by
  rw [State.ran_eq]

/-- A script whose calls all have the verdict "ok" runs whole. -/
theorem perform_healthy {script : List Action} {s : State} {k : Nat} (hk : fallible script ≤ k)
    (h : s.healthy k = true) : perform script s = .done (s.ran script) := by
  rcases perform_cases script s with hd | ⟨before, c, after, rfl, _, hc, _⟩
  · exact hd
  · exfalso
    have hm : (s.ran before).calls ∈ s.failAt := by simpa [State.callOk] using hc
    have hf : fallible (before ++ .call c :: after) = fallible before + (fallible after + 1) := by
      rw [fallible_append]; rfl
    rw [State.ran_calls] at hm
    exact (State.healthy_iff s k).1 h _ (by omega) (by omega) hm

/-- A script whose first bad verdict falls on its call `c` stops there. -/
theorem perform_firstFailure {before after : List Action} {c : Call} {s : State}
    (h : s.firstFailure (fallible before) = true) :
    perform (before ++ .call c :: after) s = .raised (.transport c) ((s.ran before).afterFailedCall c) := by
  simp only [State.firstFailure, Bool.and_eq_true] at h
  rw [perform_append, perform_healthy (Nat.le_refl _) h.1]
  have : (s.ran before).callOk = false := by simpa [State.callOk] using h.2
  simp [perform, performCall, this]

/-! ## Events of the scripts -/

@[simp] theorem commandScript_events (opcode : Byte) (operands : List Byte) :
    (commandScript opcode operands).map Action.event = commandEvents opcode operands := rfl

@[simp] theorem dataScript_events (bytes : List Byte) : (dataScript bytes).map Action.event = dataEvents bytes := rfl

@[simp] theorem resetScript_events : resetScript.map Action.event = resetEvents := rfl

@[simp] theorem replayScript_events (entries : List Config.Entry) :
    (replayScript entries).map Action.event = replayEvents entries := by
  simp [replayScript, replayEvents, List.map_flatMap]

@[simp] theorem flushScript_events (m : Memory) : (flushScript (packAll m)).map Action.event = flushEvents m := by
  simp [flushScript, packAll, flushEvents, List.map_flatMap, List.flatMap_map]

@[simp] theorem fallible_commandScript (opcode : Byte) (operands : List Byte) :
    fallible (commandScript opcode operands) = 3 := rfl

@[simp] theorem fallible_dataScript (bytes : List Byte) : fallible (dataScript bytes) = 3 := rfl

@[simp] theorem fallible_resetScript : fallible resetScript = 2 := rfl

@[simp] theorem fallible_replayScript (entries : List Config.Entry) :
    fallible (replayScript entries) = 3 * entries.length := by
  induction entries with
  | nil => rfl
  | cons e rest ih =>
    have : replayScript (e :: rest) = commandScript e.1 e.2 ++ replayScript rest := rfl
    rw [this, fallible_append, ih]
    simp
    omega

theorem fallible_flatMap_dataScript (columns : List (List Byte)) :
    fallible (columns.flatMap dataScript) = 3 * columns.length := by
  induction columns with
  | nil => rfl
  | cons b rest ih =>
    rw [List.flatMap_cons, fallible_append, ih]
    simp
    omega

@[simp] theorem fallible_flushScript (m : Memory) : fallible (flushScript (packAll m)) = 192 := by
  rw [flushScript, fallible_flatMap_dataScript]
  simp [packAll, Config.packedCols]

/-- `replayScript` leaves D/C HIGH unless it is empty. -/
@[simp] theorem finalLevel_dc_replayScript (v : Level) (entries : List Config.Entry) :
    finalLevel .dc v (replayScript entries) = if entries = [] then v else .high := by
  induction entries generalizing v with
  | nil => rfl
  | cons e rest ih =>
    have h : replayScript (e :: rest) = commandScript e.1 e.2 ++ replayScript rest := rfl
    rw [h, finalLevel_append, ih]
    simp [commandScript, finalLevel]

/-- `replayScript` does not touch the reset line. -/
@[simp] theorem finalLevel_reset_replayScript (v : Level) (entries : List Config.Entry) :
    finalLevel .reset v (replayScript entries) = v := by
  induction entries generalizing v with
  | nil => rfl
  | cons e rest ih =>
    have h : replayScript (e :: rest) = commandScript e.1 e.2 ++ replayScript rest := rfl
    rw [h, finalLevel_append, ih]
    rfl

/-- Data bursts leave D/C LOW. -/
theorem finalLevel_dc_flatMap_dataScript (v : Level) (columns : List (List Byte)) :
    finalLevel .dc v (columns.flatMap dataScript) = if columns = [] then v else .low := by
  induction columns generalizing v with
  | nil => rfl
  | cons b rest ih =>
    rw [List.flatMap_cons, finalLevel_append, ih]
    simp [dataScript, finalLevel]

/-- Data bursts do not touch the reset line. -/
theorem finalLevel_reset_flatMap_dataScript (v : Level) (columns : List (List Byte)) :
    finalLevel .reset v (columns.flatMap dataScript) = v := by
  induction columns generalizing v with
  | nil => rfl
  | cons b rest ih =>
    rw [List.flatMap_cons, finalLevel_append, ih]
    rfl

@[simp] theorem finalLevel_dc_flushScript (v : Level) (m : Memory) :
    finalLevel .dc v (flushScript (packAll m)) = .low := by
  rw [flushScript, finalLevel_dc_flatMap_dataScript, if_neg]
  intro h
  have : (packAll m).length = 64 := by simp [packAll, Config.packedCols]
  rw [h] at this
  exact absurd this (by decide)

@[simp] theorem finalLevel_reset_flushScript (v : Level) (m : Memory) :
    finalLevel .reset v (flushScript (packAll m)) = v := finalLevel_reset_flatMap_dataScript v _

end Sys2Proof.Machine
end

