-- ==== Sys2Proof/Laws/Meanings.lean ====
section
/-! SUPPORT. Everything that `exec` can do, said once: the next states of an instruction. -/

namespace Sys2Proof.Machine

theorem onBound_next {s t : State} {f : State → State} : onBound s f = .next t ↔ s.bound = true ∧ t = f s := by
  unfold onBound
  split
  · next h => simp [h, eq_comm]
  · next h => simp [h]

theorem onBound_eq {s : State} (h : s.bound = true) (f : State → State) : onBound s f = .next (f s) := by
  simp [onBound, h]

theorem onBound_unbound {s : State} (h : s.bound = false) (f : State → State) : onBound s f = .refused .unbound := by
  simp [onBound, h]

/-- The script of an instruction that uses the transport, on good operands. -/
def scriptOf (s : State) : Instr → List Action
  | .construct _ _ _ _ _ _ => []
  | .reset => resetScript
  | .command o p => commandScript (toByte o) (p.map toByte)
  | .sendData bs => dataScript (bs.map toByte)
  | .initialise m => initialiseScript s.params m
  | .setDisplayPower on => commandScript (displayPowerOpcode on) []
  | .resetAddressWindow => replayScript s.params.windowResetSeq
  | .setPixel _ _ _ => []
  | .flush => flushScript (packAll s.fb)
  | .updateRegion _ _ _ => []
  | .wire15 p => commandScript 0x15 p
  | .wire24 p => commandScript 0x24 p
  | .wire75 p => commandScript 0x75 p
  | .wire81 p => commandScript 0x81 p
  | .wireA4 p => commandScript 0xA4 p
  | .wireA6 p => commandScript 0xA6 p
  | .wireAE p => commandScript 0xAE p
  | .wireAF p => commandScript 0xAF p
  | .pixPair a b => dataScript [pack a b]

/-- What an instruction other than `construct` does on a bound block. -/
def bodyOf (i : Instr) (s : State) : State :=
  match i with
  | .construct _ _ _ _ _ _ => s
  | .command o p => frameBytes .command (o :: p) (scriptOf s (.command o p)) s
  | .sendData bs => frameBytes .sendData bs (scriptOf s (.sendData bs)) s
  | .setPixel x y v => if inFramebuffer x y then storeRun .setPixel x y [v] s else s.raise (.boundsPixel x y)
  | .updateRegion x y vs =>
    if runFits x y vs.length then storeRun .updateRegion x y vs s else s.raise (.boundsRegion x y vs.length)
  | .flush => flushBody s
  | .reset => (perform (scriptOf s .reset) s).settle
  | .initialise m => (perform (scriptOf s (.initialise m)) s).settle
  | .setDisplayPower on => (perform (scriptOf s (.setDisplayPower on)) s).settle
  | .resetAddressWindow => (perform (scriptOf s .resetAddressWindow) s).settle
  | .wire15 p => (perform (scriptOf s (.wire15 p)) s).settle
  | .wire24 p => (perform (scriptOf s (.wire24 p)) s).settle
  | .wire75 p => (perform (scriptOf s (.wire75 p)) s).settle
  | .wire81 p => (perform (scriptOf s (.wire81 p)) s).settle
  | .wireA4 p => (perform (scriptOf s (.wireA4 p)) s).settle
  | .wireA6 p => (perform (scriptOf s (.wireA6 p)) s).settle
  | .wireAE p => (perform (scriptOf s (.wireAE p)) s).settle
  | .wireAF p => (perform (scriptOf s (.wireAF p)) s).settle
  | .pixPair a b => (perform (scriptOf s (.pixPair a b)) s).settle

/-- Every instruction but `construct` is its body behind the check of BOUND. -/
theorem exec_eq_onBound {i : Instr} (s : State) (h : opClass i ≠ .constructs) : exec i s = onBound s (bodyOf i) := by
  cases i <;> first | rfl | exact absurd rfl h

theorem exec_body {i : Instr} {s t : State} (h : exec i s = .next t) (hc : opClass i ≠ .constructs) :
    s.bound = true ∧ t = bodyOf i s := by
  rw [exec_eq_onBound s hc] at h
  exact onBound_next.1 h

/-- Everything that the next state of an instruction can be. -/
inductive NextState (s : State) : Instr → State → Prop
  | constructed (b d l r : Nat) (hb : s.bound = false) (hok : s.bindOk b d l r = true) :
    NextState s (.construct b d l r 64 128) (s.countAttempt.constructed ⟨b, d, l, r, 64, 128⟩)
  | notBindable (b d l r : Nat) (hb : s.bound = false) (hno : s.bindOk b d l r = false) :
    NextState s (.construct b d l r 64 128) (s.countAttempt.raise (.configuration b d l r))
  | stored (i : Instr) (x y : Int) (vs : List Int) (hb : s.bound = true)
    (hi : i = .updateRegion x y vs ∨ ∃ v, i = .setPixel x y v ∧ vs = [v])
    (hfit : runFits x y vs.length = true) (hgood : badIntensities s.params.intensityPolicy vs = []) :
    NextState s i (State.succeed { s with fb := s.fb.writeRun x.toNat y.toNat (vs.map storeValue) })
  | outOfRange (i : Instr) (e : ErrorRecord) (hb : s.bound = true) (hc : opClass i = .stores)
    (hk : e.kind = .bounds) (ht : transportCalls [e] = []) : NextState s i (s.raise e)
  | rejected (i : Instr) (op : HostOp) (v : Int) (rest : List Int) (hb : s.bound = true) (hc : opClass i = .stores)
    (hp : s.params.intensityPolicy = .reject) :
    NextState s i (s.raiseContract (.contractIntensity op) v rest)
  | notBytes (i : Instr) (op : HostOp) (v : Int) (rest : List Int) (hb : s.bound = true) (hc : checksBytes i = true) :
    NextState s i (s.raiseContract (.contractByte op) v rest)
  | transported (i : Instr) (hb : s.bound = true) (hc : opClass i ≠ .constructs) (hs : opClass i ≠ .stores)
    (hf : i ≠ .flush) : NextState s i (perform (scriptOf s i) s).settle
  | flushed (hb : s.bound = true) : NextState s .flush (flushBody s)

theorem inFramebuffer_eq_runFits (x y : Int) : inFramebuffer x y = runFits x y 1 := by
  have h : (x < (Config.cols : Int)) ↔ (x + ((1 : Nat) : Int) ≤ (Config.cols : Int)) := by
    simp only [Config.cols]
    omega
  simp only [inFramebuffer, runFits, h]

theorem badIntensities_cons {policy : Config.IntensityPolicy} {vs rest : List Int} {v : Int}
    (h : badIntensities policy vs = v :: rest) : policy = .reject := by
  cases policy with
  | mask => cases h
  | reject => rfl

/-- What `exec` can do. -/
theorem exec_next {i : Instr} {s t : State} (h : exec i s = .next t) : NextState s i t := by
  cases i with
  | construct b d l r rows cols =>
    simp only [exec, execConstruct] at h
    split at h
    · cases h
    · next hb =>
      split at h
      · next hg =>
        obtain ⟨rfl, rfl⟩ := hg
        split at h
        · next hok =>
          cases h
          exact .constructed b d l r (by simpa using hb) hok
        · next hno =>
          cases h
          exact .notBindable b d l r (by simpa using hb) (by simpa using hno)
      · cases h
  | setPixel x y v =>
    obtain ⟨hb, rfl⟩ := exec_body h (fun hc => nomatch hc)
    simp only [bodyOf]
    by_cases hr : inFramebuffer x y = true
    · rw [if_pos hr]
      unfold storeRun
      split
      · next hg => exact .stored _ x y [v] hb (.inr ⟨v, rfl, rfl⟩) (by rw [← hr, inFramebuffer_eq_runFits]; rfl) hg
      · next w rest hg => exact .rejected _ _ w rest hb rfl (badIntensities_cons hg)
    · rw [if_neg hr]
      exact .outOfRange _ _ hb rfl rfl rfl
  | updateRegion x y vs =>
    obtain ⟨hb, rfl⟩ := exec_body h (fun hc => nomatch hc)
    simp only [bodyOf]
    by_cases hr : runFits x y vs.length = true
    · rw [if_pos hr]
      unfold storeRun
      split
      · next hg => exact .stored _ x y vs hb (.inl rfl) hr hg
      · next w rest hg => exact .rejected _ _ w rest hb rfl (badIntensities_cons hg)
    · rw [if_neg hr]
      exact .outOfRange _ _ hb rfl rfl rfl
  | command o p =>
    obtain ⟨hb, rfl⟩ := exec_body h (fun hc => nomatch hc)
    simp only [bodyOf]
    unfold frameBytes
    split
    · exact .transported _ hb (by simp [opClass]) (by simp [opClass]) (by simp)
    · next v rest _ => exact .notBytes _ _ v rest hb rfl
  | sendData bs =>
    obtain ⟨hb, rfl⟩ := exec_body h (fun hc => nomatch hc)
    simp only [bodyOf]
    unfold frameBytes
    split
    · exact .transported _ hb (by simp [opClass]) (by simp [opClass]) (by simp)
    · next v rest _ => exact .notBytes _ _ v rest hb rfl
  | flush =>
    obtain ⟨hb, rfl⟩ := exec_body h (fun hc => nomatch hc)
    simp only [bodyOf]
    exact .flushed hb
  | reset | initialise _ | setDisplayPower _ | resetAddressWindow | wire15 _ | wire24 _ | wire75 _ | wire81 _
  | wireA4 _ | wireA6 _ | wireAE _ | wireAF _ | pixPair _ _ =>
    obtain ⟨hb, rfl⟩ := exec_body h (fun hc => nomatch hc)
    simp only [bodyOf]
    exact .transported _ hb (by simp [opClass]) (by simp [opClass]) (by simp)

/-- How a script ends a request: success after all of it, or one `TransportError` at its first failing call. -/
theorem settle_cases (script : List Action) (s : State) :
    (perform script s).settle = (s.ran script).succeed ∨
    ∃ before c after, script = before ++ .call c :: after ∧ perform before s = .done (s.ran before) ∧
      (s.ran before).callOk = false ∧
      (perform script s).settle = ((s.ran before).afterFailedCall c).raise (.transport c) := by
  rcases perform_cases script s with h | ⟨before, c, after, h1, h2, h3, h4⟩
  · left; rw [h]; rfl
  · right; exact ⟨before, c, after, h1, h2, h3, by rw [h4]; rfl⟩

/-- A failed call leaves one of two levels on its line, one `Failed` event, and nothing else but the counters. -/
theorem State.afterFailedCall_eq (s : State) (c : Call) :
    ∃ dc rst draws, s.afterFailedCall c = { s with
      trace := s.trace ++ [.failed c], dc := dc, rst := rst, calls := s.calls + 1, draws := draws } ∧
      (dc = s.dc ∨ c = .setLine .dc dc) ∧ (rst = s.rst ∨ c = .setLine .reset rst) := by
  cases c with
  | write bytes => exact ⟨s.dc, s.rst, s.draws, rfl, .inl rfl, .inl rfl⟩
  | setLine l v =>
    cases l with
    | dc =>
      refine ⟨if Config.failedLineMoved s.draws then v else s.dc, s.rst, s.draws + 1, rfl, ?_, .inl rfl⟩
      split
      · exact .inr rfl
      · exact .inl rfl
    | reset =>
      refine ⟨s.dc, if Config.failedLineMoved s.draws then v else s.rst, s.draws + 1, rfl, .inl rfl, ?_⟩
      split
      · exact .inr rfl
      · exact .inl rfl

/-! ## Bytes and offending values -/

@[simp] theorem toByte_byteToInt (b : Byte) : toByte (byteToInt b) = b := by
  simp [toByte, byteToInt]

@[simp] theorem map_toByte_byteToInt (bs : List Byte) : (bs.map byteToInt).map toByte = bs := by
  simp [List.map_map, Function.comp_def]

@[simp] theorem legalByte_byteToInt (b : Byte) : legalByte (byteToInt b) = true := by
  have := b.isLt
  unfold legalByte byteToInt
  rw [Bool.and_eq_true]
  exact ⟨decide_eq_true (by omega), decide_eq_true (by omega)⟩

@[simp] theorem badBytes_map_byteToInt (bs : List Byte) : badBytes (bs.map byteToInt) = [] := by
  simp [badBytes, List.filter_eq_nil_iff]

theorem pick_mem (n : Nat) (v : Int) (rest : List Int) : pick n v rest ∈ v :: rest := by
  induction rest generalizing n v with
  | nil => simp [pick]
  | cons w rest ih =>
    cases n with
    | zero => simp [pick]
    | succ k => exact List.mem_cons_of_mem _ (ih k w)

end Sys2Proof.Machine
end

