-- ==== Sys2Proof/Laws/PerInstr.lean ====
section
/-! SUPPORT. Facts made per instruction: the encoder puts the word of spec/opcode_table.json's "match" column first. -/

namespace Sys2Proof.Laws.EncodeMatchesTable

/-- The word a request begins with: the selector of a record, the opcode byte of a command burst; a data burst has none
(the PIXPAIR row fixes no bit). -/
def firstWord : Request → Option Nat
  | .hostReq op _ => some op.toNat
  | .wireBurst .low (opcode :: _) => some opcode.toNat
  | .wireBurst .low [] => none
  | .wireBurst .high _ => none

/-- The "match" column of spec/opcode_table.json. -/
def tableMatch : Instr → Option Nat
  | .construct _ _ _ _ _ _ => some 0x0
  | .reset => some 0x1
  | .command _ _ => some 0x2
  | .sendData _ => some 0x3
  | .initialise _ => some 0x4
  | .setDisplayPower _ => some 0x5
  | .resetAddressWindow => some 0x6
  | .setPixel _ _ _ => some 0x7
  | .flush => some 0x8
  | .updateRegion _ _ _ => some 0x9
  | .wire15 _ => some 0x15
  | .wire24 _ => some 0x24
  | .wire75 _ => some 0x75
  | .wire81 _ => some 0x81
  | .wireA4 _ => some 0xA4
  | .wireA6 _ => some 0xA6
  | .wireAE _ => some 0xAE
  | .wireAF _ => some 0xAF
  | .pixPair _ _ => none

/-- The encoding of the instruction begins with the word of its table row. -/
def Statement (i : Instr) : Prop := firstWord (encode i) = tableMatch i

theorem construct (busIndex deviceIndex dcLine resetLine rows cols : Nat) :
    Statement (.construct busIndex deviceIndex dcLine resetLine rows cols) := rfl
theorem reset : Statement .reset := rfl
theorem command (opcode : Int) (operands : List Int) : Statement (.command opcode operands) := rfl
theorem sendData (bytes : List Int) : Statement (.sendData bytes) := rfl
theorem initialise (vccMode : VccMode) : Statement (.initialise vccMode) := rfl
theorem setDisplayPower (on : Bool) : Statement (.setDisplayPower on) := rfl
theorem resetAddressWindow : Statement .resetAddressWindow := rfl
theorem setPixel (x y intensity : Int) : Statement (.setPixel x y intensity) := rfl
theorem flush : Statement .flush := rfl
theorem updateRegion (startX startY : Int) (values : List Int) : Statement (.updateRegion startX startY values) := rfl
theorem wire15 (operands : List Byte) : Statement (.wire15 operands) := rfl
theorem wire24 (operands : List Byte) : Statement (.wire24 operands) := rfl
theorem wire75 (operands : List Byte) : Statement (.wire75 operands) := rfl
theorem wire81 (operands : List Byte) : Statement (.wire81 operands) := rfl
theorem wireA4 (operands : List Byte) : Statement (.wireA4 operands) := rfl
theorem wireA6 (operands : List Byte) : Statement (.wireA6 operands) := rfl
theorem wireAE (operands : List Byte) : Statement (.wireAE operands) := rfl
theorem wireAF (operands : List Byte) : Statement (.wireAF operands) := rfl
theorem pixPair (a b : Nibble) : Statement (.pixPair a b) := rfl

end Sys2Proof.Laws.EncodeMatchesTable
end

