-- ==== Sys2Proof/Tests/Slice0.lean ====
section
/-! SUPPORT. Tests against the spec's own tables and vectors (95_test_vectors.md), and for every obligation with hypotheses
a concrete state and operands that meet them. -/

namespace Sys2Proof.Tests

open Sys2Proof Sys2Proof.Machine

/-! ## Well-formedness: an ill-formed term for each check -/

theorem test_illFormed_construct_rows : (Instr.construct 0 0 1 2 32 128).wellFormed = false := by decide
theorem test_illFormed_construct_cols : (Instr.construct 0 0 1 2 64 64).wellFormed = false := by decide
theorem test_illFormed_command_opcode : (Instr.command 256 []).wellFormed = false := by decide
theorem test_illFormed_command_operand : (Instr.command 0x81 [0x40, -1]).wellFormed = false := by decide
theorem test_illFormed_sendData : (Instr.sendData [0, 256]).wellFormed = false := by decide
theorem test_illFormed_setPixel :
    (Instr.setPixel 128 0 1).wellFormed = false ∧ (Instr.setPixel (-1) 0 1).wellFormed = false ∧
    (Instr.setPixel 0 64 1).wellFormed = false ∧ (Instr.setPixel 0 (-1) 1).wellFormed = false ∧
    (Instr.setPixel 0 0 16).wellFormed = false ∧ (Instr.setPixel 0 0 (-1)).wellFormed = false := by decide
theorem test_illFormed_updateRegion :
    (Instr.updateRegion 127 5 [1, 2]).wellFormed = false ∧ (Instr.updateRegion (-1) 0 [5]).wellFormed = false ∧
    (Instr.updateRegion 0 64 []).wellFormed = false ∧ (Instr.updateRegion 0 (-1) []).wellFormed = false ∧
    (Instr.updateRegion 0 0 [16]).wellFormed = false := by decide
theorem test_illFormed_wire :
    (Instr.wireA4 [0]).wellFormed = false ∧ (Instr.wireA6 [0]).wellFormed = false ∧
    (Instr.wireAE [0]).wellFormed = false ∧ (Instr.wireAF [0]).wellFormed = false := by decide
theorem test_wellFormed_corners :
    (Instr.setPixel 127 63 15).wellFormed = true ∧ (Instr.updateRegion 125 63 [1, 2, 3]).wellFormed = true ∧
    (Instr.updateRegion 128 0 []).wellFormed = true ∧ (Instr.command 255 [0, 255]).wellFormed = true := by decide

/-- R131: a two-entry table (as V30's) is legal but not the documented one. -/
theorem test_undocumented_table : Config.InitTable.documented ⟨(0xAE, []), [(0xB3, [0xF1])]⟩ = false := by decide

/-! ## Decoding, from the selectors of R81, the operands of R82 and the opcodes of R91 -/

theorem test_decode_construct : decode (.hostReq 0b0000 [.num 0, .num 0, .num 1, .num 2, .num 64, .num 128]) =
    .ok (.construct 0 0 1 2 64 128) := by decide
theorem test_decode_reset : decode (.hostReq 0b0001 []) = .ok .reset := by decide
theorem test_decode_command : decode (.hostReq 0b0010 [.num 0x81, .list [0x40]]) = .ok (.command 0x81 [0x40]) := by decide
theorem test_decode_sendData : decode (.hostReq 0b0011 [.list [0x12, 0x34]]) = .ok (.sendData [0x12, 0x34]) := by decide
theorem test_decode_initialise : decode (.hostReq 0b0100 [.mode .external]) = .ok (.initialise .external) := by decide
theorem test_decode_setDisplayPower : decode (.hostReq 0b0101 [.bool false]) = .ok (.setDisplayPower false) := by decide
theorem test_decode_resetAddressWindow : decode (.hostReq 0b0110 []) = .ok .resetAddressWindow := by decide
theorem test_decode_setPixel : decode (.hostReq 0b0111 [.num 126, .num 5, .num 23]) = .ok (.setPixel 126 5 23) := by decide
theorem test_decode_flush : decode (.hostReq 0b1000 []) = .ok .flush := by decide
theorem test_decode_updateRegion : decode (.hostReq 0b1001 [.num 126, .num 5, .list [7, 8]]) =
    .ok (.updateRegion 126 5 [7, 8]) := by decide
theorem test_decode_wire_windows :
    decode (.wireBurst .low [0b00010101, 0b00000000, 0b00111111]) = .ok (.wire15 [0, 63]) ∧
    decode (.wireBurst .low [0b00100100, 1, 2]) = .ok (.wire24 [1, 2]) ∧
    decode (.wireBurst .low [0b01110101, 0b00000000, 0b00111111]) = .ok (.wire75 [0, 63]) ∧
    decode (.wireBurst .low [0b10000001, 0b01000000]) = .ok (.wire81 [64]) := by decide
theorem test_decode_wire_power :
    decode (.wireBurst .low [0b10100100]) = .ok (.wireA4 []) ∧ decode (.wireBurst .low [0b10100110]) = .ok (.wireA6 []) ∧
    decode (.wireBurst .low [0b10101110]) = .ok (.wireAE []) ∧ decode (.wireBurst .low [0b10101111]) = .ok (.wireAF []) := by
  decide

/-- R85: bits 7..4 are `a`, bits 3..0 are `b`. -/
theorem test_decode_pixPair : decode (.wireBurst .high [0b10100100]) = .ok (.pixPair 10 4) := by decide

/-- R168: any other opcode byte is a plain command; R83: an operand cannot be told from an opcode by its value. -/
theorem test_decode_other_opcode :
    decode (.wireBurst .low [0xB8, 0xA4]) = .ok (.command 0xB8 [0xA4]) ∧
    decode (.wireBurst .high [0xA4, 0xA4]) = .ok (.sendData [0xA4, 0xA4]) := by decide

/-- R89 and R82: a reserved selector, an operand missing, of another type, or too many of them. -/
theorem test_decode_rejects :
    decode (.hostReq 10 []) = .error (.reservedSelector 10) ∧ decode (.hostReq 15 []) = .error (.reservedSelector 15) ∧
    decode (.hostReq 7 [.num 0, .num 0]) = .error .missingOperand ∧
    decode (.hostReq 5 [.num 1]) = .error .operandType ∧ decode (.hostReq 8 [.num 1]) = .error .tooManyOperands ∧
    decode (.wireBurst .low []) = .error .emptyCommandBurst := by decide

/-- Words as spec/opcode_table.json numbers them. -/
theorem test_decodeTableWord :
    decodeTableWord 8 0x4 = some (.initialise .switchCap) ∧ decodeTableWord 8 0x9 = some (.updateRegion 0 0 []) ∧
    decodeTableWord 8 0x24 = some (.wire24 []) ∧ decodeTableWord 24 0x3F0015 = some (.wire15 [0x00, 0x3F]) ∧
    decodeTableWord 8 0xF1 = some (.pixPair 15 1) ∧ decodeTableWord 8 0xA = none := by decide

/-! ## Small states -/

/-- What a state reports when an instruction has run on it; the state itself where it has no next state. -/
def after (i : Instr) (s : State) : State :=
  match exec i s with
  | .next t => t
  | .fault _ => s
  | .refused _ => s

/-- The illustrative tables of V30 and V37. -/
def tables : Params where
  initExternal := ⟨(0xAD, [0x02]), []⟩
  initSwitchCap := ⟨(0xAE, []), [(0xB3, [0xF1])]⟩
  windowResetSeq := Config.defaultWindowResetSeq
  intensityPolicy := .mask

/-- "Fresh" of 95_test_vectors.md, with those tables. -/
def fresh : State := { State.reset with params := tables }

/-- Fresh, where the transport call with this number fails. -/
def failing (n : Nat) : State := { fresh with failAt := [n] }

/-- Fresh, under the alternative intensity policy. -/
def rejecting : State := { fresh with params := { tables with intensityPolicy := .reject } }

/-- Fresh, with one request to run. -/
def asking (r : Request) : State := { fresh with requests := [r] }

/-! ## Lifecycle: V7, V10 to V14, V16, V17 -/

theorem test_construct_V10_V11 : (after (.construct 0 0 1 2 64 128) State.start).handle = ⟨0, 0, 1, 2, 64, 128⟩ ∧
    (after (.construct 0 0 1 2 64 128) State.start).bound = true ∧
    (after (.construct 0 0 1 2 64 128) { State.start with bindDenied := [(0, 0, 0, 1, 2)] }).faults =
      [.configuration 0 0 1 2] ∧ ErrorKind.configuration.code = 1 := by decide
theorem test_construct_V12_V13 : exec (.construct 0 0 1 2 32 128) State.start = .refused .geometry ∧
    exec (.construct 0 0 1 2 64 128) fresh = .refused .alreadyBound := ⟨rfl, rfl⟩
theorem test_reset_V7_V17 : (after .reset fresh).trace = [.setLine .reset .low, .delay 10, .setLine .reset .high] ∧
    (after .reset { fresh with fb := [((1, 1), 9)] }).fb.read 1 1 = 9 := by decide
theorem test_reset_V14_V16 : exec .reset State.start = .refused .unbound ∧
    (after .reset (failing 0)).trace = [.failed (.setLine .reset .low)] ∧
    (after .reset (failing 0)).reply = some (.error .transport) ∧ ErrorKind.transport.code = 2 :=
  ⟨rfl, by decide, by decide, by decide⟩

/-! ## Framing: V3, V4, V21, V24 to V26, V28 -/

theorem test_command_V3_V21 : (after (.command 0x81 [0x40]) fresh).trace =
    [.setLine .dc .low, .write [0x81, 0x40], .setLine .dc .high] ∧
    (after (.command 0x81 [0x40]) fresh).dc = .high ∧
    (after (.command 0xAE []) { fresh with dc := .high }).trace =
      [.setLine .dc .low, .write [0xAE], .setLine .dc .high] := by decide
theorem test_command_V24_V25_V28 : (after (.command 256 []) fresh).faults = [.contractByte .command 256] ∧
    (after (.command 256 []) fresh).trace = [] ∧ ErrorKind.contract.code = 4 ∧
    (after (.command 0x81 [0x40, -1]) fresh).faults = [.contractByte .command (-1)] ∧
    (after (.command 0x81 [0x40]) (failing 1)).trace = [.setLine .dc .low, .failed (.write [0x81, 0x40])] ∧
    (after (.command 0x81 [0x40]) (failing 1)).dc = .low := by decide
theorem test_sendData_V4_V26 : (after (.sendData [0x12, 0x34]) fresh).trace =
    [.setLine .dc .high, .write [0x12, 0x34], .setLine .dc .low] ∧
    (after (.sendData [0x12, 0x34]) fresh).dc = .low ∧
    (after (.sendData []) fresh).trace = [.setLine .dc .high, .write [], .setLine .dc .low] := by decide

/-! ## Control: V30 to V32, V34 to V37 -/

theorem test_initialise_V30 : (after (.initialise .switchCap) fresh).trace =
    [.delay 1, .setLine .reset .low, .delay 10, .setLine .reset .high] ++ commandEvents 0xAE [] ++
      commandEvents 0xB3 [0xF1] ++ commandEvents 0x15 [0x00, 0x3F] ++ commandEvents 0x75 [0x00, 0x3F] := by decide
theorem test_initialise_V36_V37 : (after (.initialise .switchCap) (failing 6)).trace =
    [.delay 1, .setLine .reset .low, .delay 10, .setLine .reset .high] ++ commandEvents 0xAE [] ++
      [.setLine .dc .low, .failed (.write [0xB3, 0xF1])] ∧
    writes (after (.initialise .external) fresh).trace = [[0xAD, 0x02], [0x15, 0x00, 0x3F], [0x75, 0x00, 0x3F]] := by
  decide
theorem test_setDisplayPower_V31_V32 : (after (.setDisplayPower true) fresh).trace = commandEvents 0xA4 [] ∧
    (after (.setDisplayPower false) fresh).trace = commandEvents 0xA6 [] := by decide
theorem test_resetAddressWindow_V34 : (after .resetAddressWindow fresh).trace =
    commandEvents 0x15 [0x00, 0x3F] ++ commandEvents 0x75 [0x00, 0x3F] := by decide
theorem test_resetAddressWindow_V35 :
    (after .resetAddressWindow { fresh with params := { tables with windowResetSeq := [] } }).trace = [] ∧
    (after .resetAddressWindow { fresh with params := { tables with windowResetSeq := [] } }).dc = .low := by decide

/-! ## Stores: V1, V6, V41 to V46, V48 -/

/-- V1, V41, and the canonical form: storing 0 removes the listing, and the order of stores does not show. -/
theorem test_setPixel_V1_V41 : readBack (after (.setPixel 5 9 7) fresh) 5 9 = .value 7 ∧
    [16, 31, -1, 255, 26, -16, 15, 0].map (fun v => (after (.setPixel 0 0 v) fresh).fb.read 0 0) =
      [0, 15, 15, 15, 10, 0, 15, 0] ∧
    (after (.setPixel 3 0 16) { fresh with fb := [((3, 0), 5)] }).fb = [] ∧
    (after (.setPixel 1 7 2) { fresh with fb := [((2, 0), 5)] }).fb = [((1, 7), 2), ((2, 0), 5)] := by decide
theorem test_setPixel_V42_V43_V44 : (after (.setPixel 0 0 16) rejecting).faults = [.contractIntensity .setPixel 16] ∧
    (after (.setPixel 0 0 16) rejecting).fb = [] ∧
    [(128, 0), (0, 64), (-1, 0), (0, -1)].map (fun p : Int × Int => (after (.setPixel p.1 p.2 1) fresh).reply) =
      List.replicate 4 (some (.error .bounds)) ∧ ErrorKind.bounds.code = 3 ∧
    (after (.setPixel 128 0 99) rejecting).faults = [.boundsPixel 128 0] := by decide
theorem test_updateRegion_V6_V45 :
    (after (.updateRegion 0 0 [1, 2, 3]) fresh).fb = [((0, 0), 1), ((1, 0), 2), ((2, 0), 3)] ∧
    (after (.updateRegion 125 63 [1, 2, 3]) fresh).fb = [((125, 63), 1), ((126, 63), 2), ((127, 63), 3)] := by decide
theorem test_updateRegion_V46_V48 : (after (.updateRegion 125 0 [9, 9, 9, 9]) fresh).faults = [.boundsRegion 125 0 4] ∧
    (after (.updateRegion 125 0 [9, 9, 9, 9]) fresh).fb = [] ∧
    (after (.updateRegion 128 0 []) fresh).reply = some .success ∧
    (after (.updateRegion 129 0 []) fresh).reply = some (.error .bounds) := by decide

/-! ## Flush and packing: R155, V51 to V55, V5B -/

theorem test_pack : pack 10 4 = 0xA4 ∧ pack 7 8 = 0x78 ∧ pack 8 7 = 0x87 ∧ pack 1 0 = 0x10 ∧ pack 0 1 = 0x01 := by decide

/-- V51, V52, V53: even x is the high nibble, odd x the low one, y selects the byte. -/
theorem test_V51_V53 : (packedColumn [((0, 0), 15), ((1, 0), 1)] 0).head? = some 0xF1 ∧
    (packedColumn [((1, 0), 15)] 0).head? = some 0x0F ∧
    (packedColumn [((0, 1), 15)] 0).take 3 = [0x00, 0xF0, 0x00] := by decide

/-- V55: the last byte of the last burst. -/
theorem test_V55 : (packedColumn [((127, 63), 9)] 63)[63]? = some 0x09 := by decide

/-! ## Wire rows: V60, V62 to V64 -/

theorem test_V60 : (after (.wire15 [0x00, 0x3F]) fresh).trace = commandEvents 0x15 [0x00, 0x3F] := by decide
theorem test_V61 : (after (.wire75 [0x00, 0x3F]) fresh).trace = commandEvents 0x75 [0x00, 0x3F] := by decide
theorem test_V62 : (after (.wire81 [0x40]) fresh).trace = commandEvents 0x81 [0x40] := by decide
theorem test_V63 : (after (.wireA4 []) fresh).trace = commandEvents 0xA4 [] ∧
    (after (.wireA6 []) fresh).trace = commandEvents 0xA6 [] ∧
    (after (.wireAE []) fresh).trace = commandEvents 0xAE [] ∧
    (after (.wireAF []) fresh).trace = commandEvents 0xAF [] := by decide
theorem test_wire24 : (after (.wire24 [1, 2, 3]) fresh).trace = commandEvents 0x24 [1, 2, 3] := by decide
theorem test_V64 : (after (.pixPair 10 4) fresh).trace = dataEvents [0xA4] := by decide

/-! ## Steps and the table words -/

/-- The step of a table word on the reset state runs that instruction. -/
theorem test_withFetchWord :
    step (State.reset.withFetchWord 8 0x81) =
      .next { after (.wire81 []) State.reset with pc := 2, requests := [] } := rfl

/-- R22: an operation that raises moves `pc` on too. -/
theorem test_step_error : step (asking (.hostReq 7 [.num 128, .num 0, .num 1])) =
    .next { fresh with pc := 2, faults := [.boundsPixel 128 0], reply := some (.error .bounds) } := rfl

/-! ## Witnesses -/

theorem witness_ReservedSelectorsAreRefused : 10 ≤ (10 : BitVec 4).toNat ∧ 10 ≤ (15 : BitVec 4).toNat ∧
    (asking (.hostReq 10 [])).requests = [.hostReq 10 []] ∧ (asking (.hostReq 15 [])).requests = [.hostReq 15 []] := by
  decide

theorem witness_StepRunsTheDecodedRequest :
    (decode (.hostReq 1 []) = .ok .reset ∧ ∃ t, exec .reset (asking (.hostReq 1 [])) = .next t) ∧
    (decode (.hostReq 0 []) = .ok (.construct 0 0 1 2 64 128) ∧
      exec (.construct 0 0 1 2 64 128) (asking (.hostReq 0 [])) = .refused .alreadyBound) ∧
    decode (.hostReq 10 []) = .error (.reservedSelector 10) ∧ fresh.requests = [] :=
  ⟨⟨by decide, _, rfl⟩, ⟨by decide, rfl⟩, by decide, rfl⟩

theorem witness_RequestIndexAdvancesByOne : ∃ t, step (asking (.hostReq 1 [])) = .next t := ⟨_, rfl⟩

theorem witness_ConstructBindsTheBlock : State.start.bound = false ∧ (State.start.attempts, 0, 0, 1, 2) ∉ State.start.bindDenied := by decide

theorem witness_ConstructFailsOrIsRefused :
    (({ State.start with bindDenied := [(0, 0, 0, 1, 2)] } : State).bound = false ∧
      (State.start.attempts, 0, 0, 1, 2) ∈ ({ State.start with bindDenied := [(0, 0, 0, 1, 2)] } : State).bindDenied) ∧
    fresh.bound = true ∧ (State.start.bound = false ∧ ¬ (63 = 64 ∧ 128 = 128)) := by decide

/-- The first attempt is denied, the second is not. -/
theorem witness_ConstructRetryIsAFreshAttempt :
    ({ State.start with bindDenied := [(0, 0, 0, 1, 2)] } : State).bound = false ∧
    (State.start.attempts, 0, 0, 1, 2) ∈ ({ State.start with bindDenied := [(0, 0, 0, 1, 2)] } : State).bindDenied ∧
    (State.start.attempts + 1, 0, 0, 1, 2) ∉ ({ State.start with bindDenied := [(0, 0, 0, 1, 2)] } : State).bindDenied := by
  decide

theorem witness_UnboundRefusesAllButConstruct : State.start.bound = false ∧ opClass .flush ≠ .constructs := by decide

theorem witness_ResetSendsOneLowPulse : (failing 2).bound = true ∧ (failing 2).healthy 2 = true := by decide

theorem witness_ResetStopsAtTheFailingLine :
    (failing 0).bound = true ∧ (failing 0).firstFailure 0 = true ∧
    (failing 1).bound = true ∧ (failing 1).firstFailure 1 = true := by decide

theorem witness_CommandSendsOneBurstUnderLow : (failing 3).bound = true ∧ (failing 3).healthy 3 = true := by decide

theorem witness_SendDataSendsOneBurstUnderHigh : (failing 3).bound = true ∧ (failing 3).healthy 3 = true := by decide

theorem witness_NonBytesRaiseContractViolation : fresh.bound = true ∧
    (∃ o p, Instr.command 256 [] = .command o p ∧ HostOp.command = .command ∧ [(256 : Int)] = o :: p) ∧
    (∃ v ∈ [(256 : Int)], ¬ (0 ≤ v ∧ v ≤ 255)) ∧ (∃ v ∈ [(0 : Int), -1], ¬ (0 ≤ v ∧ v ≤ 255)) :=
  ⟨rfl, ⟨256, [], rfl, rfl, rfl⟩, ⟨256, by decide, by decide⟩, ⟨-1, by decide, by decide⟩⟩

theorem witness_FramingStopsAtTheFailingCall :
    (failing 0).bound = true ∧ (failing 0).firstFailure 0 = true ∧ (failing 1).firstFailure 1 = true ∧
    (failing 2).firstFailure 2 = true ∧
    (∃ o p, Instr.command 0xAE [] = .command (byteToInt o) (p.map byteToInt) ∧ Level.low = .low ∧ [(0xAE : Byte)] = o :: p) ∧
    Instr.sendData [] = .sendData (([] : List Byte).map byteToInt) :=
  ⟨rfl, by decide, by decide, by decide, ⟨0xAE, [], rfl, rfl, rfl⟩, rfl⟩

theorem witness_InitialiseReplaysTableThenWindow : fresh.bound = true ∧
    fresh.healthy (2 + 3 * ((fresh.params.initTable .switchCap).entries.length + fresh.params.windowResetSeq.length)) =
      true := by decide

theorem witness_SetDisplayPowerSendsA4OrA6 : (failing 3).bound = true ∧ (failing 3).healthy 3 = true := by decide

theorem witness_ResetAddressWindowReplaysItsSequence : (failing 6).bound = true ∧
    (failing 6).healthy (3 * (failing 6).params.windowResetSeq.length) = true ∧
    fresh.params.windowResetSeq = [(0x15, [0x00, 0x3F]), (0x75, [0x00, 0x3F])] := by decide

theorem witness_SetPixelStoresOneCell : fresh.bound = true ∧ (127 < 128 ∧ 63 < 64) ∧
    fresh.params.intensityPolicy = .mask ∧ (rejecting.bound = true ∧ (0 : Int) ≤ 15 ∧ (15 : Int) ≤ 15) := by decide

theorem witness_UpdateRegionStoresOneRun : fresh.bound = true ∧ 125 + [(1 : Int), 2, 300].length ≤ 128 ∧ 63 < 64 ∧
    fresh.params.intensityPolicy = .mask ∧ (rejecting.bound = true ∧ ∀ v ∈ [(0 : Int), 15], 0 ≤ v ∧ v ≤ 15) := by decide

theorem witness_UpdateRegionNeverWraps : ∃ t, exec (.updateRegion 125 63 [1, 2, 3]) fresh = .next t ∧
    t.reply = some .success ∧ t.fb.read 127 63 ≠ fresh.fb.read 127 63 := ⟨_, rfl, rfl, by decide⟩

theorem witness_OutOfRangeStoresRaiseBoundsError : fresh.bound = true ∧
    ¬ ((0 : Int) ≤ 128 ∧ (128 : Int) < 128 ∧ (0 : Int) ≤ 0 ∧ (0 : Int) < 64) ∧
    ¬ ((0 : Int) ≤ 127 ∧ (127 : Int) + [(1 : Int), 2].length ≤ 128 ∧ (0 : Int) ≤ 5 ∧ (5 : Int) < 64) := by decide

theorem witness_RejectedIntensitiesRaiseContractViolation : rejecting.bound = true ∧
    rejecting.params.intensityPolicy = .reject ∧
    (∃ x y v : Int, 0 ≤ x ∧ x < 128 ∧ 0 ≤ y ∧ y < 64 ∧ Instr.setPixel 0 63 16 = .setPixel x y v ∧
      HostOp.setPixel = .setPixel ∧ [(16 : Int)] = [v]) ∧
    (∃ x y : Int, 0 ≤ x ∧ x + [(16 : Int)].length ≤ 128 ∧ 0 ≤ y ∧ y < 64 ∧
      Instr.updateRegion 127 0 [16] = .updateRegion x y [16] ∧ HostOp.updateRegion = .updateRegion) ∧
    ∃ v ∈ [(16 : Int)], ¬ (0 ≤ v ∧ v ≤ 15) :=
  ⟨rfl, rfl, ⟨0, 63, 16, by decide, by decide, by decide, by decide, rfl, rfl, rfl⟩,
    ⟨127, 0, by decide, by decide, by decide, by decide, rfl, rfl⟩, ⟨16, by decide, by decide⟩⟩

theorem witness_FramebufferReadAfterWrite : Memory.wf [((0, 0), 5)] = true ∧ 127 < 128 ∧ 63 < 64 := by decide

theorem witness_ReadBackSeesTheLastStore :
    (∃ t, exec (.setPixel 127 63 9) fresh = .next t ∧ t.reply = some .success) ∧ fresh.bound = true ∧
    ¬ ((0 : Int) ≤ -1 ∧ (-1 : Int) < 128 ∧ (0 : Int) ≤ 0 ∧ (0 : Int) < 64) := ⟨⟨_, rfl, rfl⟩, rfl, by decide⟩

theorem witness_FlushSendsSixtyFourColumns : (failing 192).bound = true ∧ (failing 192).healthy 192 = true := by decide

/-- A flush on the drawn cells of V49 succeeds: the hypotheses of FlushUnpacksToTheFramebuffer and FlushTotals. -/
theorem witness_flush_succeeds : ∃ t, exec .flush (after (.updateRegion 1 0 [0xA, 0xB, 0xC]) fresh) = .next t ∧
    t.reply = some .success := by
  refine ⟨_, rfl, ?_⟩
  have h : (after (.updateRegion 1 0 [0xA, 0xB, 0xC]) fresh).healthy 192 = true := by decide
  have hp := perform_healthy (script := flushScript (packAll (after (.updateRegion 1 0 [0xA, 0xB, 0xC]) fresh).fb))
    (s := { after (.updateRegion 1 0 [0xA, 0xB, 0xC]) fresh with
      packed := some (packAll (after (.updateRegion 1 0 [0xA, 0xB, 0xC]) fresh).fb) }) (k := 192)
    (by rw [fallible_flushScript]) h
  simp only [flushBody, hp]
  rfl

/-- Two states with one framebuffer whose flushes both succeed. -/
theorem witness_FlushIsIdempotent : ∃ t t', exec .flush fresh = .next t ∧ t.reply = some .success ∧
    exec .flush (failing 192) = .next t' ∧ t'.reply = some .success ∧ (failing 192).fb = fresh.fb := by
  refine ⟨_, _, rfl, ?_, rfl, ?_, rfl⟩
  · have hp := perform_healthy (script := flushScript (packAll fresh.fb))
      (s := { fresh with packed := some (packAll fresh.fb) }) (k := 192) (by rw [fallible_flushScript]) (by decide)
    simp only [flushBody, hp]
    rfl
  · have hp := perform_healthy (script := flushScript (packAll (failing 192).fb))
      (s := { failing 192 with packed := some (packAll (failing 192).fb) }) (k := 192) (by rw [fallible_flushScript])
      (by decide)
    simp only [flushBody, hp]
    rfl

theorem witness_FlushStopsAtTheFailingBurst : (failing 0).bound = true ∧
    (failing 0).firstFailure (3 * 0 + 0) = true ∧ (failing 190).firstFailure (3 * 63 + 1) = true ∧
    (failing 191).firstFailure (3 * 63 + 2) = true ∧ (failing 3).firstFailure (3 * 1 + 0) = true := by decide

theorem witness_WireOpcodesSendTheirBurst : (failing 3).bound = true ∧ (failing 3).healthy 3 = true ∧
    (Instr.wireAF [], (0xAF : Byte)) ∈ [(Instr.wire15 [], (0x15 : Byte)), (.wire24 [], 0x24), (.wire75 [], 0x75),
      (.wire81 [], 0x81), (.wireA4 [], 0xA4), (.wireA6 [], 0xA6), (.wireAE [], 0xAE), (.wireAF [], 0xAF)] := by decide

theorem witness_PixelPairIsSentAsData : (failing 3).bound = true ∧ (failing 3).healthy 3 = true := by decide

theorem witness_OperationsAreTheirExpansions : fresh.bound = true ∧ fresh.packed = none := by decide

theorem witness_SetPixelIsAOneCellRun : rejecting.bound = true := by decide

/-- A next state of a store, of a sending operation, of a reset pulse and of a failing `command`: the hypotheses of
FrameOfEveryOperation, OperationsLeaveProgramAndParameters, ErrorsAreRecordedOnceAndByTheMatrix, EventCountsOfSuccess,
RestingLevelOfDc and EveryBurstUnderItsLevel. -/
theorem witness_next_states :
    (∃ t, exec (.setPixel 0 0 1) fresh = .next t ∧ t.reply = some .success ∧ opClass (.setPixel 0 0 1) = .stores) ∧
    (∃ t, exec (.sendData [1]) fresh = .next t ∧ t.reply = some .success ∧ failedCalls t.trace = [] ∧
      opClass (.sendData [1]) = .sendsData) ∧
    (∃ t, exec .reset fresh = .next t ∧ t.reply = some .success ∧ opClass .reset = .pulsesReset) ∧
    (∃ t, exec (.command 1 []) (failing 1) = .next t ∧ t.reply = some (.error .transport) ∧
      opClass (.command 1 []) = .sendsCommands) :=
  ⟨⟨_, rfl, rfl, rfl⟩, ⟨_, rfl, rfl, rfl, rfl⟩, ⟨_, rfl, rfl, rfl⟩, ⟨_, rfl, rfl, rfl⟩⟩

theorem witness_BoundsAndContractErrorsArePrecise :
    (∃ t, exec (.setPixel 128 0 1) fresh = .next t ∧ t.reply = some (.error .bounds)) ∧
    (∃ t, exec (.command 256 []) fresh = .next t ∧ t.reply = some (.error .contract)) := ⟨⟨_, rfl, rfl⟩, ⟨_, rfl, rfl⟩⟩

theorem witness_TransportErrorsFollowTheVerdicts :
    (∃ t, exec (.command 1 []) (failing 1) = .next t ∧ (failing 1).calls < t.calls ∧ t.calls - 1 ∈ (failing 1).failAt) ∧
    (∃ t, exec (.command 1 []) fresh = .next t ∧ t.reply = some .success) :=
  ⟨⟨_, rfl, by decide, by decide⟩, ⟨_, rfl, rfl⟩⟩

theorem witness_StepKeepsTheTraceFramed : ∃ t, step (asking (.hostReq 3 [.list [1]])) = .next t ∧
    framed [.low, .high] (asking (.hostReq 3 [.list [1]])).trace = true ∧ failedCalls t.trace = [] := ⟨_, rfl, rfl, rfl⟩

theorem witness_HandleIsNeverInterpreted : opClass .flush ≠ .constructs := by decide

theorem witness_LatchesAreNeverRead : ∃ t, exec .reset (failing 0) = .next t := ⟨_, rfl⟩

/-- A state with a cell drawn, one request left and one failed call behind it: it meets the invariant, and it steps. -/
theorem witness_StepKeepsTheInvariant :
    Inv { failing 0 with
      fb := [((1, 1), 9)], trace := [.failed (.setLine .dc .low)], faults := [.transport (.setLine .dc .low)], calls := 1,
      requests := [.hostReq 8 []] } ∧
    ∃ t, step { failing 0 with
      fb := [((1, 1), 9)], trace := [.failed (.setLine .dc .low)], faults := [.transport (.setLine .dc .low)], calls := 1,
      requests := [.hostReq 8 []] } = .next t := by
  refine ⟨?_, _, rfl⟩
  exact
    { fb_wf := by decide
      no_packed := rfl
      geometry := fun _ => ⟨rfl, rfl⟩
      unbound_trace := fun h => nomatch h
      dc_traced := by decide
      rst_traced := by decide
      errors_traced := rfl
      verdicts_traced := by decide }

end Sys2Proof.Tests
end

/-! ## Steps and their requests -/

namespace Sys2Proof.Machine

theorem State.fetch_cons {s : State} {r : Request} {rest : List Request} (h : s.requests = r :: rest) :
    s.fetch = some (r, rest) := by
  simp [State.fetch, h]

theorem State.fetch_nil {s : State} (h : s.requests = []) : s.fetch = none := by
  simp [State.fetch, h]

theorem step_of_no_request {s : State} (h : s.requests = []) : step s = .fault .runEnded := by
  simp only [step, State.fetch_nil h]

theorem step_of_decode_error {s : State} {r : Request} {rest : List Request} {e : DecodeError}
    (hr : s.requests = r :: rest) (hd : decode r = .error e) : step s = .refused (.undecodable e) := by
  simp only [step, State.fetch_cons hr, hd]

theorem step_of_exec_next {s t : State} {r : Request} {rest : List Request} {i : Instr}
    (hr : s.requests = r :: rest) (hd : decode r = .ok i) (he : exec i s = .next t) :
    step s = .next (t.advance rest) := by
  simp only [step, State.fetch_cons hr, hd, he]

theorem step_of_exec_refused {s : State} {r : Request} {rest : List Request} {i : Instr} {q : Refusal}
    (hr : s.requests = r :: rest) (hd : decode r = .ok i) (he : exec i s = .refused q) : step s = .refused q := by
  simp only [step, State.fetch_cons hr, hd, he]

theorem onBound_ne_fault (s : State) (f : State → State) (q : Fault) : onBound s f ≠ .fault q := by
  cases hb : s.bound with
  | true => simp [onBound_eq hb]
  | false => simp [onBound_unbound hb]

theorem execConstruct_ne_fault (busIndex deviceIndex dcLine resetLine rows cols : Nat) (s : State) (q : Fault) :
    execConstruct busIndex deviceIndex dcLine resetLine rows cols s ≠ .fault q := by
  unfold execConstruct
  split
  · simp -- a bound block
  · split
    · split <;> simp -- the geometry of the panel: both verdicts on the attempt give a next state
    · simp -- another geometry

/-- The errors of the spec are next states and what it rules out is refused: no instruction stops with a fault. -/
theorem exec_ne_fault (i : Instr) (s : State) (q : Fault) : exec i s ≠ .fault q := by
  by_cases hc : opClass i = .constructs
  · cases i with
    | construct busIndex deviceIndex dcLine resetLine rows cols =>
      exact execConstruct_ne_fault busIndex deviceIndex dcLine resetLine rows cols s q
    | _ => cases hc
  · rw [exec_eq_onBound s hc]
    exact onBound_ne_fault s (bodyOf i) q

/-- Settles O7, from one equation of `step` for each path through the queue, the decoder and `exec`. -/
theorem stepRunsTheDecodedRequest : Obligations.StepRunsTheDecodedRequest := by
  unfold Obligations.StepRunsTheDecodedRequest
  refine ⟨fun s r rest i hr hd => ⟨?next, ?refused⟩, exec_ne_fault, ?undecodable, ?ended⟩
  case next => exact fun t he => step_of_exec_next hr hd he
  case refused => exact fun q he => step_of_exec_refused hr hd he
  case undecodable => exact fun s r rest e hr hd => step_of_decode_error hr hd
  case ended => exact fun s h => step_of_no_request h

end Sys2Proof.Machine

/-! ## Induction along a script -/

namespace Sys2Proof.Machine

/-- What holds all along a script that succeeds, and so at the end of the request: `P` is carried through
the delays and the successful calls, and `Q` is reached from it by success or by the first failing call. -/
theorem settle_induction {P Q : State → Prop}
    (delay : ∀ s ms, P s → P (s.emit (.delay ms)))
    (ok : ∀ s c, s.callOk = true → P s → P (s.afterCall c))
    (failed : ∀ s c, s.callOk = false → P s → Q ((s.afterFailedCall c).raise (.transport c)))
    (done : ∀ s, P s → Q s.succeed)
    (script : List Action) {s : State} (h : P s) : Q (perform script s).settle := by
  induction script generalizing s with
  | nil => exact done s h
  | cons a rest ih =>
    cases a with
    | delay ms => exact ih (delay s ms h)
    | call c =>
      simp only [perform, performCall]
      cases hc : s.callOk with
      | true => exact ih (ok s c hc h)
      | false => exact failed s c hc h

/-! ## State that no operation reads -/

/-- Two states related by `R` run alike and stay related: `R` says that they differ only in fields that are written and
never read. -/
structure Unread (R : State → State → Prop) : Prop where
  callOk {s u} : R s u → u.callOk = s.callOk
  emit {s u} (e : Event) : R s u → R (s.emit e) (u.emit e)
  afterCall {s u} (c : Call) : R s u → R (s.afterCall c) (u.afterCall c)
  afterFailedCall {s u} (c : Call) : R s u → R (s.afterFailedCall c) (u.afterFailedCall c)
  succeed {s u} : R s u → R s.succeed u.succeed
  raise {s u} (e : ErrorRecord) : R s u → R (s.raise e) (u.raise e)

theorem Unread.settle_related {R : State → State → Prop} (hR : Unread R) (script : List Action) {s u : State}
    (h : R s u) : R (perform script s).settle (perform script u).settle := by
  induction script generalizing s u with
  | nil => exact hR.succeed h
  | cons a rest ih =>
    cases a with
    | delay ms => exact ih (hR.emit _ h)
    | call c =>
      simp only [perform, performCall, hR.callOk h]
      cases s.callOk with
      | true => exact ih (hR.afterCall c h)
      | false => exact hR.raise _ (hR.afterFailedCall c h)

/-- Two states that differ at most in `PACKED`. -/
def SameButPacked (s u : State) : Prop := ∃ p, u = { s with packed := p }

theorem unread_packed : Unread SameButPacked where
  callOk := by rintro s _ ⟨p, rfl⟩; rfl
  emit e := by rintro ⟨p, rfl⟩; exact ⟨p, rfl⟩
  afterCall c := by rintro ⟨p, rfl⟩; cases c <;> exact ⟨p, rfl⟩
  afterFailedCall c := by rintro ⟨p, rfl⟩; cases c <;> exact ⟨p, rfl⟩
  succeed := by rintro s _ ⟨p, rfl⟩; exact ⟨p, rfl⟩
  raise e := by rintro ⟨p, rfl⟩; exact ⟨p, rfl⟩

/-- The transport never reads `PACKED`, so a flush is its script, with `PACKED` empty after it (R29). -/
theorem flushBody_eq (s : State) :
    flushBody s = { (perform (scriptOf s .flush) s).settle with packed := none } := by
  obtain ⟨p, hp⟩ := unread_packed.settle_related (scriptOf s .flush)
    (s := s) (u := { s with packed := some (packAll s.fb) }) ⟨_, rfl⟩
  exact congrArg (fun u : State => { u with packed := none }) hp

/-! ## Readings of a longer trace -/

@[simp] theorem verdicts_append (a b : List Event) : verdicts (a ++ b) = verdicts a ++ verdicts b := by
  induction a with
  | nil => rfl
  | cons e rest ih => cases e <;> simp [verdicts, ih]

@[simp] theorem failedCalls_append (a b : List Event) : failedCalls (a ++ b) = failedCalls a ++ failedCalls b := by
  induction a with
  | nil => rfl
  | cons e rest ih => cases e <;> simp [failedCalls, ih]

@[simp] theorem possibleLevels_append (l : Line) (levels : List Level) (a b : List Event) :
    possibleLevels l levels (a ++ b) = possibleLevels l (possibleLevels l levels a) b := by
  induction a generalizing levels with
  | nil => rfl
  | cons e rest ih =>
    cases e with
    | failed c => cases c <;> exact ih _
    | setLine | write | delay => exact ih _

@[simp] theorem transportCalls_append (a b : List ErrorRecord) :
    transportCalls (a ++ b) = transportCalls a ++ transportCalls b := by
  induction a with
  | nil => rfl
  | cons e rest ih => cases e <;> simp [transportCalls, ih]

/-- The level a successful call leaves is one its event allows (R11). -/
theorem finalLevel_mem_possibleLevels {l : Line} {v : Level} {levels : List Level} (c : Call) (hv : v ∈ levels) :
    finalLevel l v [.call c] ∈ possibleLevels l levels [c.event] := by
  cases c with
  | write bytes => exact hv
  | setLine m w => by_cases hm : m = l <;> simp [finalLevel, Call.event, possibleLevels, hm, hv]

/-- So is the level a failed call leaves, whether its line took the level asked for or not (R11). -/
theorem mem_possibleLevels_failed {l : Line} {v w : Level} {levels : List Level} {c : Call} (hv : v ∈ levels)
    (hw : w = v ∨ c = .setLine l w) : w ∈ possibleLevels l levels [.failed c] := by
  obtain rfl | rfl := hw
  · cases c with
    | write bytes => exact hv
    | setLine m u => by_cases hm : m = l <;> simp [possibleLevels, hm, hv]
  · simp [possibleLevels]

@[simp] theorem failedCalls_event (c : Call) : failedCalls [c.event] = [] := by cases c <;> rfl

@[simp] theorem verdicts_event (c : Call) : verdicts [c.event] = [true] := by cases c <;> rfl

/-! ## The invariant along a request -/

/-- One transport call, successful or failed, keeps the invariant if its event, its error and the latches agree. -/
theorem Inv.event_of_call {s t : State} {e : Event} (h : Inv s) (hb : s.bound = true)
    (ht : t = { s with
      trace := s.trace ++ [e], calls := s.calls + 1, dc := t.dc, rst := t.rst, faults := t.faults, reply := t.reply,
      draws := t.draws })
    (hdc : t.dc ∈ possibleLevels .dc (possibleLevels .dc [.low] s.trace) [e])
    (hrst : t.rst ∈ possibleLevels .reset (possibleLevels .reset [.high] s.trace) [e])
    (herr : transportCalls t.faults = transportCalls s.faults ++ failedCalls [e])
    (hok : verdicts [e] = [s.callOk]) : Inv t := by
  rw [ht]
  exact
    { h with
      unbound_trace := fun hu => absurd hu (by simp [hb])
      dc_traced := by simpa using hdc
      rst_traced := by simpa using hrst
      errors_traced := by simpa [h.errors_traced] using herr
      verdicts_traced := by simp [h.verdicts_traced, hok, List.range_succ, State.callOk] }

theorem Inv.afterCall {s : State} (c : Call) (hc : s.callOk = true) (hb : s.bound = true) (h : Inv s) :
    Inv (s.afterCall c) := by
  have heq : s.afterCall c = _ := State.ran_eq s [.call c]
  rw [heq]
  exact h.event_of_call (e := c.event) hb rfl (finalLevel_mem_possibleLevels c h.dc_traced)
    (finalLevel_mem_possibleLevels c h.rst_traced) (by simp) (by simp [hc])

/-- The `Failed` event and the `TransportError` of a failed call come together (R11, R177). -/
theorem Inv.afterFailedCall_raise {s : State} (c : Call) (hc : s.callOk = false) (hb : s.bound = true) (h : Inv s) :
    Inv ((s.afterFailedCall c).raise (.transport c)) := by
  obtain ⟨dc, rst, draws, heq, hdc, hrst⟩ := s.afterFailedCall_eq c
  rw [heq]
  exact h.event_of_call hb rfl (mem_possibleLevels_failed h.dc_traced hdc) (mem_possibleLevels_failed h.rst_traced hrst)
    (by simp [transportCalls, failedCalls]) (by simp [verdicts, hc])

theorem Inv.emit_delay {s : State} (ms : Nat) (hb : s.bound = true) (h : Inv s) : Inv (s.emit (.delay ms)) :=
  { h with
    unbound_trace := fun hu => absurd hu (by simp [hb])
    dc_traced := by simpa [possibleLevels] using h.dc_traced
    rst_traced := by simpa [possibleLevels] using h.rst_traced
    errors_traced := by simpa [failedCalls] using h.errors_traced
    verdicts_traced := by simpa [verdicts] using h.verdicts_traced }

theorem State.afterCall_bound (s : State) (c : Call) : (s.afterCall c).bound = s.bound := by
  cases c <;> rfl

/-- A script of transport calls on a bound block keeps the invariant, wherever it stops. -/
theorem Inv.settle {s : State} (script : List Action) (hb : s.bound = true) (h : Inv s) :
    Inv (perform script s).settle :=
  settle_induction (P := fun s => s.bound = true ∧ Inv s)
    (delay := fun _ ms ⟨hb, h⟩ => ⟨hb, h.emit_delay ms hb⟩)
    (ok := fun s c hc ⟨hb, h⟩ => ⟨(s.afterCall_bound c).trans hb, h.afterCall c hc hb⟩)
    (failed := fun _ c hc ⟨hb, h⟩ => h.afterFailedCall_raise c hc hb)
    (done := fun _ ⟨_, h⟩ => { h with })
    script ⟨hb, h⟩

/-- An error that is no `TransportError` has no event (R177). -/
theorem Inv.raise {s : State} {e : ErrorRecord} (he : transportCalls [e] = []) (h : Inv s) : Inv (s.raise e) :=
  { h with errors_traced := by simpa [he] using h.errors_traced }

theorem Inv.raiseContract {s : State} {record : Int → ErrorRecord} {v : Int} {rest : List Int}
    (he : ∀ w, transportCalls [record w] = []) (h : Inv s) : Inv (s.raiseContract record v rest) :=
  { h.raise (he _) with }

/-- A run inside the framebuffer is stored inside the map of R60. -/
theorem Inv.store {s : State} {x y : Int} {vs : List Int} (hfit : runFits x y vs.length = true) (h : Inv s) :
    Inv (State.succeed { s with fb := s.fb.writeRun x.toNat y.toNat (vs.map storeValue) }) := by
  simp only [runFits, Bool.and_eq_true, decide_eq_true_eq, Config.cols, Config.rows] at hfit
  exact { h with fb_wf := Memory.wf_writeRun _ _ _ _ h.fb_wf (by simp; omega) (by omega) }

/-- A successful `construct` empties `TRACE` and keeps `FAULTS`, which holds no `TransportError` yet (R31, R34). -/
theorem Inv.constructed {s : State} {busIndex deviceIndex dcLine resetLine : Nat} (hb : s.bound = false) (h : Inv s) :
    Inv (s.constructed ⟨busIndex, deviceIndex, dcLine, resetLine, 64, 128⟩) where
  fb_wf := rfl
  no_packed := rfl
  geometry _ := ⟨rfl, rfl⟩
  unbound_trace _ := rfl
  dc_traced := by simp [possibleLevels]
  rst_traced := by simp [possibleLevels]
  errors_traced := by simpa [h.unbound_trace hb] using h.errors_traced
  verdicts_traced := rfl

theorem Inv.exec {i : Instr} {s t : State} (h : Inv s) (he : exec i s = .next t) : Inv t := by
  cases exec_next he with
  | constructed b d l r hb _ => exact Inv.constructed (s := s.countAttempt) hb { h with }
  | notBindable b d l r _ _ => exact Inv.raise (s := s.countAttempt) rfl { h with }
  | stored _ x y vs _ _ hfit _ => exact h.store hfit
  | outOfRange _ e _ _ _ ht => exact h.raise ht
  | rejected => exact h.raiseContract fun _ => rfl
  | notBytes => exact h.raiseContract fun _ => rfl
  | transported _ hb _ _ _ => exact h.settle _ hb
  | flushed hb =>
    rw [flushBody_eq]
    exact { h.settle (scriptOf s .flush) hb with no_packed := rfl }

/-! ## One step -/

/-- A step that has a next state ran the request at the head of the queue and took it off (R22). -/
theorem step_next {s t : State} (h : step s = .next t) :
    ∃ r rest i u, s.requests = r :: rest ∧ decode r = .ok i ∧ exec i s = .next u ∧ t = u.advance rest := by
  cases hr : s.requests with
  | nil => rw [step_of_no_request hr] at h; cases h
  | cons r rest =>
    cases hd : decode r with
    | error e => rw [step_of_decode_error hr hd] at h; cases h
    | ok i =>
      cases he : exec i s with
      | next u => rw [step_of_exec_next hr hd he] at h; cases h; exact ⟨r, rest, i, u, rfl, hd, he, rfl⟩
      | fault f => exact absurd he (exec_ne_fault i s f)
      | refused q => rw [step_of_exec_refused hr hd he] at h; cases h

/-- Settles O51: every next state of an instruction keeps the invariant, and moving the queue on touches none of it. -/
theorem stepKeepsTheInvariant : Obligations.StepKeepsTheInvariant := by
  unfold Obligations.StepKeepsTheInvariant
  intro s t h hs
  obtain ⟨r, rest, i, u, _, _, he, rfl⟩ := step_next hs
  exact { h.exec he with }

/-- Settles O50, field by field on the state of R34. -/
theorem invariantAtReset : Obligations.InvariantAtReset where
  fb_wf := Memory.wf_reset
  no_packed := rfl
  geometry _ := ⟨rfl, rfl⟩
  unbound_trace _ := rfl
  dc_traced := by decide
  rst_traced := by decide
  errors_traced := rfl
  verdicts_traced := rfl

/-! ## What an instruction leaves as it was -/

/-- The script drives the line. -/
def Drives (l : Line) (script : List Action) : Prop := ∃ v, Action.setLine l v ∈ script

theorem finalLevel_of_not_drives {l : Line} {script : List Action} (h : ¬ Drives l script) (v : Level) :
    finalLevel l v script = v := by
  induction script generalizing v with
  | nil => rfl
  | cons a rest ih =>
    have hrest : ¬ Drives l rest := fun ⟨w, hw⟩ => h ⟨w, List.mem_cons_of_mem _ hw⟩
    cases a with
    | delay ms => exact ih hrest v
    | call c =>
      cases c with
      | write bytes => exact ih hrest v
      | setLine m w =>
        have hm : m ≠ l := fun e => h ⟨w, by simp [e]⟩
        simp [finalLevel, hm, ih hrest]

/-- A script that stops at a failing call and does not drive the line leaves its level. -/
theorem failedLevel_of_not_drives {l : Line} {before after : List Action} {c : Call} {v w : Level}
    (h : ¬ Drives l (before ++ .call c :: after)) (hw : w = finalLevel l v before ∨ c = .setLine l w) : w = v := by
  obtain rfl | rfl := hw
  · exact finalLevel_of_not_drives (fun ⟨u, hu⟩ => h ⟨u, List.mem_append_left _ hu⟩) v
  · exact absurd ⟨w, by simp⟩ h

/-- What a script leaves as it was, wherever it stops: all but the trace, the counters, the report to the host, and the
latches of the lines it drives. -/
theorem settle_frame (script : List Action) (s : State) :
    ∃ ev dc rst faults reply calls draws, (perform script s).settle = { s with
        trace := s.trace ++ ev, dc := dc, rst := rst, faults := faults, reply := reply, calls := calls,
        draws := draws } ∧
      (¬ Drives .dc script → dc = s.dc) ∧ (¬ Drives .reset script → rst = s.rst) := by
  rcases settle_cases script s with h | ⟨before, c, after, rfl, _, _, h⟩
  · rw [h, State.ran_eq]
    exact ⟨_, _, _, _, _, _, _, rfl, fun hl => finalLevel_of_not_drives hl _, fun hl => finalLevel_of_not_drives hl _⟩
  · obtain ⟨dc, rst, draws, heq, hdc, hrst⟩ := (s.ran before).afterFailedCall_eq c
    rw [State.ran_eq] at heq hdc hrst
    rw [h, State.ran_eq, heq]
    refine ⟨before.map Action.event ++ [.failed c], dc, rst, s.faults ++ [.transport c], some (.error .transport),
      s.calls + fallible before + 1, draws, ?_, fun hl => ?_, fun hl => ?_⟩
    · rw [← List.append_assoc]
      rfl
    · exact failedLevel_of_not_drives hl hdc
    · exact failedLevel_of_not_drives hl hrst

/-! ## Which lines an instruction drives -/

theorem not_drives_reset_commandScript (opcode : Byte) (operands : List Byte) :
    ¬ Drives .reset (commandScript opcode operands) := by
  simp [Drives, commandScript]

theorem not_drives_reset_dataScript (bytes : List Byte) : ¬ Drives .reset (dataScript bytes) := by
  simp [Drives, dataScript]

theorem not_drives_flatMap {α : Type} {l : Line} {f : α → List Action} (h : ∀ a, ¬ Drives l (f a)) (as : List α) :
    ¬ Drives l (as.flatMap f) := by
  rintro ⟨v, hv⟩
  obtain ⟨a, _, ha⟩ := List.mem_flatMap.1 hv
  exact h a ⟨v, ha⟩

/-- Stores, commands and data stay off the reset line (R38). -/
theorem not_drives_reset_scriptOf {i : Instr} (s : State)
    (h : opClass i ∈ [OpClass.stores, .sendsCommands, .sendsData]) : ¬ Drives .reset (scriptOf s i) := by
  cases i with
  | construct | reset | initialise => simp [opClass] at h
  | setPixel | updateRegion => simp [Drives, scriptOf]
  | resetAddressWindow => exact not_drives_flatMap (fun e : Config.Entry => not_drives_reset_commandScript e.1 e.2) _
  | flush => exact not_drives_flatMap not_drives_reset_dataScript _
  | sendData | pixPair => exact not_drives_reset_dataScript _
  | command | setDisplayPower | wire15 | wire24 | wire75 | wire81 | wireA4 | wireA6 | wireAE | wireAF =>
    exact not_drives_reset_commandScript _ _

/-- Stores and the reset pulse stay off the D/C line (R38). -/
theorem not_drives_dc_scriptOf {i : Instr} (s : State) (h : opClass i ∈ [OpClass.stores, .pulsesReset]) :
    ¬ Drives .dc (scriptOf s i) := by
  cases i with
  | reset | setPixel | updateRegion => simp [Drives, scriptOf, resetScript]
  | _ => simp [opClass] at h

/-! ## Frames -/

/-- The two next states of `construct` (R110): bound, or denied by the environment. -/
theorem exec_constructs_next {i : Instr} {s t : State} (h : exec i s = .next t) (hc : opClass i = .constructs) :
    ∃ b d l r, i = .construct b d l r 64 128 ∧ s.bound = false ∧
      (s.bindOk b d l r = true ∧ t = s.countAttempt.constructed ⟨b, d, l, r, 64, 128⟩ ∨
        s.bindOk b d l r = false ∧ t = s.countAttempt.raise (.configuration b d l r)) := by
  cases exec_next h with
  | constructed b d l r hb hok => exact ⟨b, d, l, r, rfl, hb, .inl ⟨hok, rfl⟩⟩
  | notBindable b d l r hb hno => exact ⟨b, d, l, r, rfl, hb, .inr ⟨hno, rfl⟩⟩
  | stored _ _ _ _ _ hi => obtain rfl | ⟨v, rfl, -⟩ := hi <;> cases hc
  | outOfRange _ _ _ hs | rejected _ _ _ _ _ hs => exact absurd (hc.symm.trans hs) (by decide)
  | notBytes _ _ _ _ _ hs =>
    cases i with
    | construct => cases hs
    | _ => cases hc
  | transported _ _ hn => exact absurd hc hn
  | flushed => cases hc

/-- An operation on a bound block either makes no transport call, and then writes cells, errors, the reply and its draws
only, or is its script. -/
theorem exec_quiet_or_script {i : Instr} {s t : State} (h : exec i s = .next t) (hc : opClass i ≠ .constructs) :
    i ≠ .flush ∧ (opClass i ≠ .stores → t.fb = s.fb) ∧
        t = { s with fb := t.fb, faults := t.faults, reply := t.reply, draws := t.draws } ∨
    opClass i ≠ .stores ∧
        t = { (perform (scriptOf s i) s).settle with packed := if i = .flush then none else s.packed } := by
  cases exec_next h with
  | constructed | notBindable => exact absurd rfl hc
  | stored _ x y vs _ hi _ _ =>
    left
    obtain rfl | ⟨v, rfl, rfl⟩ := hi
    · exact ⟨by simp, fun hs => absurd rfl hs, rfl⟩
    · exact ⟨by simp, fun hs => absurd rfl hs, rfl⟩
  | outOfRange _ _ _ hs | rejected _ _ _ _ _ hs => exact .inl ⟨fun hf => by simp [hf, opClass] at hs, fun _ => rfl, rfl⟩
  | notBytes _ _ _ _ _ hs => exact .inl ⟨fun hf => by simp [hf, checksBytes] at hs, fun _ => rfl, rfl⟩
  | transported _ _ _ hs hf =>
    right
    obtain ⟨ev, dc, rst, faults, reply, calls, draws, heq, -, -⟩ := settle_frame (scriptOf s i) s
    exact ⟨hs, by rw [if_neg hf, heq]⟩
  | flushed _ => exact .inr ⟨by simp [opClass], flushBody_eq s⟩

/-- Settles O39: without a transport call nothing in question changes; with a script, what `settle_frame` says. -/
theorem frameOfEveryOperation : Obligations.FrameOfEveryOperation := by
  unfold Obligations.FrameOfEveryOperation
  intro i s t h hc
  have hb : s.bound = true := (exec_body h hc).1
  obtain ⟨hf, hfb, ht⟩ | ⟨hs, rfl⟩ := exec_quiet_or_script h hc
  · rw [ht]
    exact ⟨hb, hb, rfl, rfl, fun _ => rfl, fun he => absurd he hf, fun hs x y => by rw [← hfb hs], fun _ => ⟨rfl, rfl⟩,
      fun _ => rfl, fun _ => rfl, [], by simp⟩
  · obtain ⟨ev, dc, rst, faults, reply, calls, draws, heq, hdc, hrst⟩ := settle_frame (scriptOf s i) s
    rw [heq]
    exact ⟨hb, hb, rfl, rfl, fun hf => if_neg hf, fun hf => if_pos hf, fun _ _ _ => rfl, fun he => absurd he hs,
      fun hi => hrst (not_drives_reset_scriptOf s hi), fun hi => hdc (not_drives_dc_scriptOf s hi), ev, rfl⟩

/-- Settles O40: neither kind of operation writes these fields, and `construct` does not either. -/
theorem operationsLeaveProgramAndParameters : Obligations.OperationsLeaveProgramAndParameters := by
  unfold Obligations.OperationsLeaveProgramAndParameters
  intro i s t h
  by_cases hc : opClass i = .constructs
  · obtain ⟨b, d, l, r, -, -, ⟨-, rfl⟩ | ⟨-, rfl⟩⟩ := exec_constructs_next h hc <;> exact ⟨rfl, rfl, rfl, rfl, rfl⟩
  · obtain ⟨-, -, ht⟩ | ⟨-, rfl⟩ := exec_quiet_or_script h hc
    · rw [ht]
      exact ⟨rfl, rfl, rfl, rfl, rfl⟩
    · obtain ⟨ev, dc, rst, faults, reply, calls, draws, heq, -, -⟩ := settle_frame (scriptOf s i) s
      rw [heq]
      exact ⟨rfl, rfl, rfl, rfl, rfl⟩

/-- Settles O8: the step is one instruction, which moves neither the index nor the queue, and one advance. -/
theorem requestIndexAdvancesByOne : Obligations.RequestIndexAdvancesByOne := by
  unfold Obligations.RequestIndexAdvancesByOne
  intro s t h
  obtain ⟨r, rest, i, u, hr, -, he, rfl⟩ := step_next h
  obtain ⟨hpc, -⟩ := operationsLeaveProgramAndParameters i s u he
  exact ⟨congrArg (· + 1) hpc, r, hr⟩

/-- Settles O12: every other instruction is a body behind the check of BOUND. -/
theorem unboundRefusesAllButConstruct : Obligations.UnboundRefusesAllButConstruct := by
  unfold Obligations.UnboundRefusesAllButConstruct
  intro i s hb hc
  rw [exec_eq_onBound s hc, onBound_unbound hb]

/-! ## What success appends and where it leaves D/C -/

/-- A request whose script returns success ran all of it. -/
theorem settle_of_success {script : List Action} {s : State}
    (h : (perform script s).settle.reply = some .success) : (perform script s).settle = (s.ran script).succeed := by
  rcases settle_cases script s with hs | ⟨before, c, after, -, -, -, hf⟩
  · exact hs
  · rw [hf] at h
    cases h

/-- An instruction that returns success appended the events of its script and left D/C as that script does; a store has
the empty script. -/
theorem success_runs_script {i : Instr} {s t : State} (h : exec i s = .next t) (hr : t.reply = some .success)
    (hc : opClass i ≠ .constructs) :
    t.trace = s.trace ++ (scriptOf s i).map Action.event ∧ t.dc = finalLevel .dc s.dc (scriptOf s i) := by
  cases exec_next h with
  | constructed | notBindable => exact absurd rfl hc
  | stored _ x y vs _ hi _ _ => obtain rfl | ⟨v, rfl, rfl⟩ := hi <;> simp [scriptOf, finalLevel]
  | outOfRange | rejected | notBytes => cases hr
  | transported =>
    rw [settle_of_success hr, State.ran_eq]
    exact ⟨rfl, rfl⟩
  | flushed =>
    rw [flushBody_eq] at hr ⊢
    rw [settle_of_success hr, State.ran_eq]
    exact ⟨rfl, rfl⟩

@[simp] theorem length_commandScript (opcode : Byte) (operands : List Byte) :
    (commandScript opcode operands).length = 3 := rfl

@[simp] theorem length_dataScript (bytes : List Byte) : (dataScript bytes).length = 3 := rfl

@[simp] theorem length_replayScript (entries : List Config.Entry) :
    (replayScript entries).length = 3 * entries.length := by
  simp [replayScript, List.length_flatMap, Nat.mul_comm]

@[simp] theorem length_flushScript (p : Packed) : (flushScript p).length = 3 * p.length := by
  simp [flushScript, List.length_flatMap, Nat.mul_comm]

theorem length_scriptOf (i : Instr) (s : State) : (scriptOf s i).length = eventCount i s.params := by
  cases i with
  | initialise m => simp [scriptOf, initialiseScript, resetScript, eventCount]; omega
  | resetAddressWindow => exact length_replayScript _
  | flush => simp [scriptOf, packAll, eventCount, Config.packedCols]
  | _ => rfl

/-- Settles O44: success appends the events of the whole script, one for each of its actions. -/
theorem eventCountsOfSuccess : Obligations.EventCountsOfSuccess := by
  unfold Obligations.EventCountsOfSuccess
  intro i s t h hr hc
  rw [(success_runs_script h hr hc).1, List.length_append, List.length_map, length_scriptOf]

theorem finalLevel_scriptOf {i : Instr} (s : State) (hc : opClass i ≠ .constructs) :
    finalLevel .dc s.dc (scriptOf s i) = restingDc i s := by
  cases i with
  | construct => exact absurd rfl hc
  | initialise m =>
    simp [scriptOf, initialiseScript, resetScript, finalLevel, Config.InitTable.entries, restingDc]
  | resetAddressWindow => exact finalLevel_dc_replayScript _ _
  | flush => exact finalLevel_dc_flushScript _ _
  | _ => rfl

/-- Settles O45: `construct` leaves D/C LOW, and any other instruction the last level its script drives. -/
theorem restingLevelOfDc : Obligations.RestingLevelOfDc := by
  unfold Obligations.RestingLevelOfDc
  intro i s t h hr
  by_cases hc : opClass i = .constructs
  · obtain ⟨b, d, l, r, rfl, -, ⟨-, rfl⟩ | ⟨-, rfl⟩⟩ := exec_constructs_next h hc
    · rfl
    · cases hr
  · exact (success_runs_script h hr hc).2.trans (finalLevel_scriptOf s hc)

/-! ## The latches and the handle are never read -/

theorem exec_construct_of_bindOk {s : State} {b d l r : Nat} (hb : s.bound = false) (hok : s.bindOk b d l r = true) :
    exec (.construct b d l r 64 128) s = .next (s.countAttempt.constructed ⟨b, d, l, r, 64, 128⟩) := by
  simp [exec, execConstruct, hb, hok]

theorem exec_construct_of_denied {s : State} {b d l r : Nat} (hb : s.bound = false) (hno : s.bindOk b d l r = false) :
    exec (.construct b d l r 64 128) s = .next (s.countAttempt.raise (.configuration b d l r)) := by
  simp [exec, execConstruct, hb, hno]

/-- Related states that agree on what the stores and the script of an operation are chosen by, and stay related when the
host's cells, `PACKED` or the free values move on. -/
structure Unobserved (R : State → State → Prop) : Prop extends Unread R where
  bound {s u} : R s u → u.bound = s.bound
  params {s u} : R s u → u.params = s.params
  fb {s u} : R s u → u.fb = s.fb
  raiseContract {s u} (record : Int → ErrorRecord) (v : Int) (rest : List Int) :
    R s u → R (s.raiseContract record v rest) (u.raiseContract record v rest)
  store {s u} (m : Memory) : R s u → R { s with fb := m } { u with fb := m }
  clearPacked {s u} : R s u → R { s with packed := none } { u with packed := none }

theorem Unobserved.scriptOf_eq {R : State → State → Prop} (hR : Unobserved R) {s u : State} (h : R s u) (i : Instr) :
    scriptOf u i = scriptOf s i := by
  cases i <;> simp [scriptOf, hR.params h, hR.fb h]

theorem Unobserved.frameBytes_related {R : State → State → Prop} (hR : Unobserved R) {s u : State} (h : R s u)
    (op : HostOp) (values : List Int) (script : List Action) :
    R (frameBytes op values script s) (frameBytes op values script u) := by
  unfold frameBytes
  cases badBytes values with
  | nil => exact hR.settle_related script h
  | cons v rest => exact hR.raiseContract _ v rest h

theorem Unobserved.storeRun_related {R : State → State → Prop} (hR : Unobserved R) {s u : State} (h : R s u)
    (op : HostOp) (x y : Int) (values : List Int) : R (storeRun op x y values s) (storeRun op x y values u) := by
  unfold storeRun
  have hbad : badIntensities u.params.intensityPolicy values = badIntensities s.params.intensityPolicy values := by
    rw [hR.params h]
  rw [hbad, hR.fb h]
  cases badIntensities s.params.intensityPolicy values with
  | nil => exact hR.succeed (hR.store _ h)
  | cons v rest => exact hR.raiseContract _ v rest h

/-- Related states stay related through every operation. -/
theorem Unobserved.bodyOf_related {R : State → State → Prop} (hR : Unobserved R) {s u : State} (h : R s u) (i : Instr) :
    R (bodyOf i s) (bodyOf i u) := by
  have hscript := hR.scriptOf_eq h
  cases i with
  | construct => exact h
  | command o p => exact hR.frameBytes_related h _ _ _
  | sendData bs => exact hR.frameBytes_related h _ _ _
  | setPixel x y v =>
    simp only [bodyOf]
    split
    · exact hR.storeRun_related h _ x y _
    · exact hR.raise _ h
  | updateRegion x y vs =>
    simp only [bodyOf]
    split
    · exact hR.storeRun_related h _ x y vs
    · exact hR.raise _ h
  | flush =>
    simp only [bodyOf, flushBody_eq, hscript]
    exact hR.clearPacked (hR.settle_related _ h)
  | _ =>
    simp only [bodyOf, hscript]
    exact hR.settle_related _ h

/-- Two states that differ at most in the levels of the latches. -/
def SameButLatches (s u : State) : Prop := ∃ dc rst, u = s.withLatches dc rst

/-- The line latches are outputs (R26, R27). -/
theorem unobserved_latches : Unobserved SameButLatches where
  callOk := by rintro s _ ⟨dc, rst, rfl⟩; rfl
  emit e := by rintro ⟨dc, rst, rfl⟩; exact ⟨dc, rst, rfl⟩
  afterCall c := by
    rintro ⟨dc, rst, rfl⟩
    cases c with
    | write => exact ⟨dc, rst, rfl⟩
    | setLine l v => exact ⟨_, _, rfl⟩
  afterFailedCall c := by
    rintro ⟨dc, rst, rfl⟩
    cases c with
    | write => exact ⟨dc, rst, rfl⟩
    | setLine l v => exact ⟨_, _, rfl⟩
  succeed := by rintro s _ ⟨dc, rst, rfl⟩; exact ⟨dc, rst, rfl⟩
  raise e := by rintro ⟨dc, rst, rfl⟩; exact ⟨dc, rst, rfl⟩
  bound := by rintro s _ ⟨dc, rst, rfl⟩; rfl
  params := by rintro s _ ⟨dc, rst, rfl⟩; rfl
  fb := by rintro s _ ⟨dc, rst, rfl⟩; rfl
  raiseContract record v rest := by rintro ⟨dc, rst, rfl⟩; exact ⟨dc, rst, rfl⟩
  store m := by rintro ⟨dc, rst, rfl⟩; exact ⟨dc, rst, rfl⟩
  clearPacked := by rintro s _ ⟨dc, rst, rfl⟩; exact ⟨dc, rst, rfl⟩

/-- The handle is opaque (R28). -/
theorem unobserved_handle (h : Handle) : Unobserved fun s u => u = s.withHandle h where
  callOk := by rintro s _ rfl; rfl
  emit e := by rintro rfl; rfl
  afterCall c := by rintro rfl; cases c <;> rfl
  afterFailedCall c := by rintro rfl; cases c <;> rfl
  succeed := by rintro s _ rfl; rfl
  raise e := by rintro rfl; rfl
  bound := by rintro s _ rfl; rfl
  params := by rintro s _ rfl; rfl
  fb := by rintro s _ rfl; rfl
  raiseContract record v rest := by rintro rfl; rfl
  store m := by rintro rfl; rfl
  clearPacked := by rintro s _ rfl; rfl

/-- Settles O48: bound or not, the other handle only rides along. -/
theorem handleIsNeverInterpreted : Obligations.HandleIsNeverInterpreted := by
  unfold Obligations.HandleIsNeverInterpreted
  intro i s h hc
  rw [exec_eq_onBound _ hc, exec_eq_onBound _ hc]
  cases hb : s.bound with
  | true =>
    rw [onBound_eq hb, onBound_eq (s := s.withHandle h) hb, (unobserved_handle h).bodyOf_related rfl i]
    rfl
  | false => rw [onBound_unbound hb, onBound_unbound (s := s.withHandle h) hb]; rfl

/-- Settles O49: `construct` sets both latches or neither, and every other operation keeps the states related. -/
theorem latchesAreNeverRead : Obligations.LatchesAreNeverRead := by
  unfold Obligations.LatchesAreNeverRead
  intro i s t dc rst h
  by_cases hc : opClass i = .constructs
  · obtain ⟨b, d, l, r, rfl, hb, ⟨hok, rfl⟩ | ⟨hno, rfl⟩⟩ := exec_constructs_next h hc
    · exact ⟨_, exec_construct_of_bindOk (s := s.withLatches dc rst) hb hok, rfl⟩
    · exact ⟨_, exec_construct_of_denied (s := s.withLatches dc rst) hb hno, rfl⟩
  · obtain ⟨hb, rfl⟩ := exec_body h hc
    obtain ⟨dc', rst', hu⟩ := unobserved_latches.bodyOf_related (s := s) (u := s.withLatches dc rst) ⟨dc, rst, rfl⟩ i
    refine ⟨bodyOf i (s.withLatches dc rst), ?_, by rw [hu]; rfl⟩
    rw [exec_eq_onBound _ hc]
    exact onBound_eq (s := s.withLatches dc rst) hb _

/-! ## Reset -/

/-- Settles O9: the state of R34, and the run of `construct()` with its defaults from the start. -/
theorem resetStateValues : Obligations.ResetStateValues := by
  unfold Obligations.ResetStateValues
  exact ⟨rfl, rfl, rfl, rfl, rfl, rfl, rfl, rfl, Memory.read_nil, rfl⟩

end Sys2Proof.Machine

/-! ## The framebuffer -/

namespace Sys2Proof.Machine

/-- Settles O27: what a write does to every read, and that a write inside the map keeps the canonical form. -/
theorem framebufferReadAfterWrite : Obligations.FramebufferReadAfterWrite := by
  unfold Obligations.FramebufferReadAfterWrite
  exact ⟨fun m x y a b v => m.read_write x y v a b, Memory.wf_write⟩

end Sys2Proof.Machine

/-! ## The request and wire encodings -/

namespace Sys2Proof

/-- The two fields of a packed byte do not overlap: the low four bits of a cell shifted left by four are clear, and the
bits above four of a zero-extended cell are (R86). -/
theorem pack_fields_disjoint (a b : Nibble) : (a.setWidth 8 <<< 4) &&& b.setWidth 8 = 0 := by
  ext k hk
  by_cases h : k < 4
  · simp [h]
  · simp [BitVec.getLsbD_of_ge b k (by omega)]

/-- Without overlap the or of the two fields is their sum (R155). -/
theorem toNat_pack (a b : Nibble) : (pack a b).toNat = 16 * a.toNat + b.toNat := by
  have ha := a.isLt
  have hb := b.isLt
  rw [pack, ← BitVec.add_eq_or_of_and_eq_zero _ _ (pack_fields_disjoint a b)]
  simp only [BitVec.toNat_add, BitVec.toNat_shiftLeft, BitVec.toNat_setWidth, Nat.shiftLeft_eq]
  omega

@[simp] theorem highNibble_pack (a b : Nibble) : highNibble (pack a b) = a := by
  have ha := a.isLt
  have hb := b.isLt
  apply BitVec.eq_of_toNat_eq
  rw [highNibble, BitVec.extractLsb'_toNat, toNat_pack, Nat.shiftRight_eq_div_pow]
  omega

@[simp] theorem lowNibble_pack (a b : Nibble) : lowNibble (pack a b) = b := by
  have hb := b.isLt
  apply BitVec.eq_of_toNat_eq
  rw [lowNibble, BitVec.extractLsb'_toNat, toNat_pack, Nat.shiftRight_zero]
  omega

theorem decode_encode_pixPair (a b : Nibble) : decode (encode (.pixPair a b)) = .ok (.pixPair a b) := by
  simp [encode, decode, decodeBurst]

/-- Settles O1, by the three forms of a request: in a record every operand reads back as it was written, a command burst is
told by its opcode byte, and a data byte holds both nibbles. -/
theorem decodeOfEncodeIsTheInstruction : Obligations.DecodeOfEncodeIsTheInstruction := by
  unfold Obligations.DecodeOfEncodeIsTheInstruction
  intro i
  cases i with
  | construct | reset | command | sendData | initialise | setDisplayPower | resetAddressWindow | setPixel | flush
  | updateRegion => rfl
  | wire15 | wire24 | wire75 | wire81 | wireA4 | wireA6 | wireAE | wireAF => rfl
  | pixPair a b => exact decode_encode_pixPair a b

/-- Settles O2: the decoder evaluated on the six requests. -/
theorem specWordsDecode : Obligations.SpecWordsDecode := by
  unfold Obligations.SpecWordsDecode
  exact ⟨rfl, rfl, rfl, rfl, rfl, rfl⟩

/-- Settles O3: the decoder evaluated on the records with operands left out. -/
theorem omittedOperandsTakeTheirDefaults : Obligations.OmittedOperandsTakeTheirDefaults := by
  unfold Obligations.OmittedOperandsTakeTheirDefaults
  exact ⟨rfl, fun _ => rfl, fun _ => rfl, fun _ _ => rfl, rfl⟩

/-- No row of R81 has a selector above 9, so the operands are not looked at. -/
theorem decode_reserved {op : BitVec 4} (h : 10 ≤ op.toNat) (args : List Arg) :
    decode (.hostReq op args) = .error (.reservedSelector op) := by
  obtain ⟨n, hn⟩ := Nat.exists_eq_add_of_le' h
  simp only [decode, decodeHostReq, hn]

/-- Settles O4: the decoder's error is the refusal of the step. -/
theorem reservedSelectorsAreRefused : Obligations.ReservedSelectorsAreRefused := by
  unfold Obligations.ReservedSelectorsAreRefused
  intro s op args rest hop hr
  exact Machine.step_of_decode_error hr (decode_reserved hop args)

end Sys2Proof

/-! ## Packed bytes as data -/

namespace Sys2Proof.Machine

/-- Settles O5: a packed byte is `pack` of its two cells. -/
theorem packedByteAssembly : Obligations.PackedByteAssembly := by
  unfold Obligations.PackedByteAssembly
  intro m i y
  exact ⟨rfl, toNat_pack _ _, Nat.le_of_lt_succ (packedByte m i y).isLt, pack_fields_disjoint _ _⟩

@[simp] theorem Attempt.settle_done (s : State) : (Attempt.done s).settle = s.succeed := rfl

@[simp] theorem Attempt.settle_raised (e : ErrorRecord) (s : State) : (Attempt.raised e s).settle = s.raise e := rfl

/-- On a bound block every instruction but `construct` has its body as its next state. -/
theorem exec_on_bound {i : Instr} {s : State} (hb : s.bound = true) (hc : opClass i ≠ .constructs) :
    exec i s = .next (bodyOf i s) :=
  (exec_eq_onBound s hc).trans (onBound_eq hb _)

/-- On a bound block a script whose calls all succeed runs whole. -/
theorem transact_healthy {script : List Action} {s : State} (hb : s.bound = true)
    (h : s.healthy (fallible script) = true) : transact script s = .next (s.ran script).succeed := by
  rw [transact, onBound_eq hb, perform_healthy (Nat.le_refl _) h, Attempt.settle_done]

/-- Settles O35: the pair is the data script of the byte `pack a b`. -/
theorem pixelPairIsSentAsData : Obligations.PixelPairIsSentAsData := by
  unfold Obligations.PixelPairIsSentAsData
  intro s a b hb hh
  refine ⟨pack a b, toNat_pack a b, ?_⟩
  calc exec (.pixPair a b) s
      = .next (s.ran (dataScript [pack a b])).succeed := transact_healthy hb hh
    _ = _ := by rw [State.ran_eq]; rfl

/-! ## Operations as the calls they expand to -/

/-- No call reads the reply that stands at the start of a script, and the end of the script overwrites it. -/
theorem settle_succeed (script : List Action) (s : State) :
    (perform script s.succeed).settle = (perform script s).settle := by
  induction script generalizing s with
  | nil => rfl
  | cons a rest ih =>
    cases a with
    | delay ms => exact ih (s.emit (.delay ms))
    | call c =>
      have hok : s.succeed.callOk = s.callOk := rfl
      have hdone : s.succeed.afterCall c = (s.afterCall c).succeed := by cases c <;> rfl
      have hfailed (e : ErrorRecord) : (s.succeed.afterFailedCall c).raise e = (s.afterFailedCall c).raise e := by
        cases c <;> rfl
      simp only [perform, performCall, hok, hdone]
      cases s.callOk with
      | true => exact ih (s.afterCall c)
      | false => exact hfailed _

/-- Two scripts in a row are two requests in a row of which the second is made if the first returned success. -/
theorem settle_append (a b : List Action) (s : State) :
    (perform (a ++ b) s).settle =
      if (perform a s).settle.reply = some .success then (perform b (perform a s).settle).settle
      else (perform a s).settle := by
  rw [perform_append]
  cases perform a s with
  | done t => simp [settle_succeed]
  | raised e t => simp

theorem settle_bound (script : List Action) (s : State) : (perform script s).settle.bound = s.bound := by
  obtain ⟨_, _, _, _, _, _, _, h, -⟩ := settle_frame script s
  rw [h]

theorem settle_params (script : List Action) (s : State) : (perform script s).settle.params = s.params := by
  obtain ⟨_, _, _, _, _, _, _, h, -⟩ := settle_frame script s
  rw [h]

theorem settle_packed (script : List Action) (s : State) : (perform script s).settle.packed = s.packed := by
  obtain ⟨_, _, _, _, _, _, _, h, -⟩ := settle_frame script s
  rw [h]

/-- On every bound block with these parameters, whatever its transport does, the operation is the script. -/
def RunsAs (p : Params) (i : Instr) (script : List Action) : Prop :=
  ∀ s : State, s.bound = true → s.params = p → exec i s = .next (perform script s).settle

/-- The same of operations one after the other. -/
def RunAllAs (p : Params) (is : List Instr) (script : List Action) : Prop :=
  ∀ s : State, s.bound = true → s.params = p → execAll is s = .next (perform script s).settle

theorem RunAllAs.nil (p : Params) : RunAllAs p [] [] := fun _ _ _ => rfl

theorem RunAllAs.cons {p : Params} {i : Instr} {is : List Instr} {a b : List Action} (hi : RunsAs p i a)
    (his : RunAllAs p is b) : RunAllAs p (i :: is) (a ++ b) := by
  intro s hb hp
  have hrest := his (perform a s).settle ((settle_bound a s).trans hb) ((settle_params a s).trans hp)
  simp only [execAll, hi s hb hp, hrest, settle_append]
  split <;> rfl

/-- A list of operations of one kind, and the operations after it. -/
theorem RunAllAs.map_append {p : Params} {α : Type} {f : α → Instr} {g : α → List Action} {is : List Instr}
    {b : List Action} (h : ∀ x, RunsAs p (f x) (g x)) (his : RunAllAs p is b) (xs : List α) :
    RunAllAs p (xs.map f ++ is) (xs.flatMap g ++ b) := by
  induction xs with
  | nil => exact his
  | cons x xs ih =>
    rw [List.flatMap_cons, List.append_assoc]
    exact .cons (h x) ih

theorem RunAllAs.map {p : Params} {α : Type} {f : α → Instr} {g : α → List Action} (h : ∀ x, RunsAs p (f x) (g x))
    (xs : List α) : RunAllAs p (xs.map f) (xs.flatMap g) := by
  simpa using RunAllAs.map_append h (.nil p) xs

/-! ## What each operation runs as -/

/-- Bytes pass the check of R90. -/
theorem frameBytes_of_no_badBytes {values : List Int} (h : badBytes values = []) (op : HostOp) (script : List Action) :
    frameBytes op values script = fun s => (perform script s).settle := by
  funext s
  simp only [frameBytes, h]

theorem exec_command_of_bytes (o : Byte) (p : List Byte) (s : State) :
    exec (.command (byteToInt o) (p.map byteToInt)) s = transact (commandScript o p) s := by
  have hgood : badBytes (byteToInt o :: p.map byteToInt) = [] := badBytes_map_byteToInt (o :: p)
  simp only [exec, execCommand, transact, frameBytes_of_no_badBytes hgood, toByte_byteToInt, map_toByte_byteToInt]

theorem exec_sendData_of_bytes (bs : List Byte) (s : State) :
    exec (.sendData (bs.map byteToInt)) s = transact (dataScript bs) s := by
  have hgood := badBytes_map_byteToInt bs
  simp only [exec, execSendData, transact, frameBytes_of_no_badBytes hgood, map_toByte_byteToInt]

theorem runsAs_of_transact {p : Params} {i : Instr} {script : List Action}
    (h : ∀ s : State, s.params = p → exec i s = transact script s) : RunsAs p i script :=
  fun s hb hp => (h s hp).trans (onBound_eq hb _)

theorem runsAs_entryCommand (p : Params) (e : Config.Entry) : RunsAs p (entryCommand e) (commandScript e.1 e.2) :=
  runsAs_of_transact fun s _ => exec_command_of_bytes e.1 e.2 s

theorem runsAs_sendData (p : Params) (bs : List Byte) : RunsAs p (.sendData (bs.map byteToInt)) (dataScript bs) :=
  runsAs_of_transact fun s _ => exec_sendData_of_bytes bs s

theorem runsAs_reset (p : Params) : RunsAs p .reset resetScript :=
  runsAs_of_transact fun _ _ => rfl

theorem runsAs_resetAddressWindow (p : Params) : RunsAs p .resetAddressWindow (replayScript p.windowResetSeq) :=
  runsAs_of_transact fun _ hp => by subst hp; rfl

theorem runsAs_initialise (p : Params) (m : VccMode) : RunsAs p (.initialise m) (initialiseScript p m) :=
  runsAs_of_transact fun _ hp => by subst hp; rfl

theorem exec_setDisplayPower_eq_command (on : Bool) (s : State) :
    exec (.setDisplayPower on) s = exec (.command (if on then 0xA4 else 0xA6) []) s := by
  cases on with
  | true => exact (exec_command_of_bytes 0xA4 [] s).symm
  | false => exact (exec_command_of_bytes 0xA6 [] s).symm

/-- `replayScript` is one `command` for each entry. -/
theorem runAllAs_entryCommands (p : Params) (entries : List Config.Entry) :
    RunAllAs p (entries.map entryCommand) (replayScript entries) :=
  .map (runsAs_entryCommand p) entries

/-- The reset pulse, the table and the window reset are the bring-up of R130 behind its delay. -/
theorem runAllAs_initialise (p : Params) (m : VccMode) :
    RunAllAs p (.reset :: (p.initTable m).entries.map entryCommand ++ [.resetAddressWindow])
      (resetScript ++ (replayScript (p.initTable m).entries ++ replayScript p.windowResetSeq)) := by
  have hwindow : RunAllAs p [.resetAddressWindow] (replayScript p.windowResetSeq) := by
    simpa using RunAllAs.cons (runsAs_resetAddressWindow p) (.nil p)
  exact .cons (runsAs_reset p) (.map_append (runsAs_entryCommand p) hwindow _)

/-- The columns of a flush are one `sendData` each (R150). -/
theorem runAllAs_columns (p : Params) (m : Memory) :
    RunAllAs p ((List.range 64).map fun i => .sendData ((packedColumn m i).map byteToInt)) (flushScript (packAll m)) := by
  rw [flushScript, packAll, List.flatMap_map]
  exact .map (fun i => runsAs_sendData p (packedColumn m i)) _

/-- Where no `PACKED` is left behind, a flush is its script. -/
theorem exec_flush_of_no_packed {s : State} (hb : s.bound = true) (hp : s.packed = none) :
    exec .flush s = .next (perform (flushScript (packAll s.fb)) s).settle := by
  have hnone := (settle_packed (flushScript (packAll s.fb)) s).trans hp
  calc exec .flush s = .next (flushBody s) := exec_on_bound hb (by decide)
    _ = _ := by rw [flushBody_eq, ← hnone]; rfl

/-- Settles O37: each operation and the calls it expands to run the same script. -/
theorem operationsAreTheirExpansions : Obligations.OperationsAreTheirExpansions := by
  unfold Obligations.OperationsAreTheirExpansions
  refine ⟨?power, ?window, ?bringUp, ?flush⟩
  case power => exact fun s on => exec_setDisplayPower_eq_command on s
  case window =>
    intro s hb
    rw [runsAs_resetAddressWindow _ s hb rfl, runAllAs_entryCommands _ _ s hb rfl]
  case bringUp =>
    intro s m hb
    have hcalls := runAllAs_initialise s.params m (s.emit (.delay 1)) hb rfl
    rw [← List.append_assoc] at hcalls
    exact (runsAs_initialise _ m s hb rfl).trans hcalls.symm
  case flush =>
    intro s hb hp
    rw [exec_flush_of_no_packed hb hp, runAllAs_columns _ _ s hb rfl]

/-! ## A pixel as a run of one cell -/

/-- Two states that differ at most in what `FAULTS` says of errors of the same kinds. -/
def SameButRecords (t u : State) : Prop :=
  t = { u with faults := t.faults } ∧ t.faults.map ErrorRecord.kind = u.faults.map ErrorRecord.kind

theorem SameButRecords.refl (s : State) : SameButRecords s s := ⟨rfl, rfl⟩

theorem sameButRecords_raise (s : State) {e f : ErrorRecord} (h : e.kind = f.kind) :
    SameButRecords (s.raise e) (s.raise f) := by
  simp [SameButRecords, State.raise, h]

theorem sameButRecords_raiseContract (s : State) {record other : Int → ErrorRecord}
    (h : ∀ w, (record w).kind = (other w).kind) (v : Int) (rest : List Int) :
    SameButRecords (s.raiseContract record v rest) (s.raiseContract other v rest) := by
  simp [SameButRecords, State.raiseContract, State.raise, h]

/-- The operation a run is stored for shows in its error record alone. -/
theorem sameButRecords_storeRun (op other : HostOp) (x y : Int) (values : List Int) (s : State) :
    SameButRecords (storeRun op x y values s) (storeRun other x y values s) := by
  unfold storeRun
  cases badIntensities s.params.intensityPolicy values with
  | nil => exact .refl _
  | cons v rest =>
    exact sameButRecords_raiseContract s (record := .contractIntensity op) (other := .contractIntensity other)
      (fun _ => rfl) v rest

/-- One cell is in range exactly if the run of it is, and then it is stored alike. -/
theorem sameButRecords_setPixel_updateRegion (x y v : Int) (s : State) :
    SameButRecords (bodyOf (.setPixel x y v) s) (bodyOf (.updateRegion x y [v]) s) := by
  simp only [bodyOf, inFramebuffer_eq_runFits, List.length_singleton]
  split
  · exact sameButRecords_storeRun _ _ x y [v] s
  · exact sameButRecords_raise s rfl

/-- Settles O38: on a bound block both are their bodies. -/
theorem setPixelIsAOneCellRun : Obligations.SetPixelIsAOneCellRun := by
  unfold Obligations.SetPixelIsAOneCellRun
  intro s x y v hb
  exact ⟨_, _, exec_on_bound hb (by simp [opClass]), exec_on_bound hb (by simp [opClass]),
    sameButRecords_setPixel_updateRegion x y v s⟩

end Sys2Proof.Machine

/-! ## Binding the block -/

namespace Sys2Proof.Machine

theorem State.bindOk_iff {s : State} {b d l r : Nat} :
    s.bindOk b d l r = true ↔ (s.attempts, b, d, l, r) ∉ s.bindDenied := by
  simp [State.bindOk]

theorem State.bindOk_eq_false_iff {s : State} {b d l r : Nat} :
    s.bindOk b d l r = false ↔ (s.attempts, b, d, l, r) ∈ s.bindDenied := by
  simp [State.bindOk]

theorem exec_construct_of_bound {s : State} (hb : s.bound = true) (b d l r rows cols : Nat) :
    exec (.construct b d l r rows cols) s = .refused .alreadyBound := by
  simp [exec, execConstruct, hb]

theorem exec_construct_of_other_geometry {s : State} {rows cols : Nat} (hb : s.bound = false)
    (hg : ¬ (rows = 64 ∧ cols = 128)) (b d l r : Nat) :
    exec (.construct b d l r rows cols) s = .refused .geometry := by
  simp [exec, execConstruct, hb, hg]

/-- Settles O10: the state `constructed` is the one of R34. -/
theorem constructBindsTheBlock : Obligations.ConstructBindsTheBlock := by
  unfold Obligations.ConstructBindsTheBlock
  intro s b d l r hb hok
  exact ⟨_, exec_construct_of_bindOk hb (State.bindOk_iff.2 hok), Memory.read_nil, rfl⟩

/-- Settles O11: the three ways `construct` can end without binding the block. -/
theorem constructFailsOrIsRefused : Obligations.ConstructFailsOrIsRefused := by
  unfold Obligations.ConstructFailsOrIsRefused
  refine ⟨?denied, ?bound, ?geometry⟩
  case denied => exact fun s b d l r hb hno => exec_construct_of_denied hb (State.bindOk_eq_false_iff.2 hno)
  case bound => exact fun s b d l r rows cols hb => exec_construct_of_bound hb b d l r rows cols
  case geometry => exact fun s b d l r rows cols hb hg => exec_construct_of_other_geometry hb hg b d l r

/-- Settles O52: the denied attempt leaves the block unbound and is counted, so the second one asks for the next verdict. -/
theorem constructRetryIsAFreshAttempt : Obligations.ConstructRetryIsAFreshAttempt := by
  unfold Obligations.ConstructRetryIsAFreshAttempt
  intro s b d l r hb hno hok
  have hfirst := exec_construct_of_denied hb (State.bindOk_eq_false_iff.2 hno)
  have hsecond := exec_construct_of_bindOk (s := s.countAttempt.raise (.configuration b d l r)) hb
    (State.bindOk_iff.2 hok)
  exact ⟨_, _, hfirst, hb, hsecond, rfl, rfl, rfl⟩

/-! ## The reset pulse, whole and cut short -/

/-- On a bound block a script whose first bad verdict falls on its call `c` ends the request with that error. -/
theorem transact_firstFailure {before after : List Action} {c : Call} {s : State} (hb : s.bound = true)
    (h : s.firstFailure (fallible before) = true) :
    transact (before ++ .call c :: after) s = .next (((s.ran before).afterFailedCall c).raise (.transport c)) := by
  rw [transact, onBound_eq hb, perform_firstFailure h, Attempt.settle_raised]

/-- A failed `T.setLine` leaves its line at the old level or at the one asked for (R11). -/
theorem State.afterFailedCall_setLine (s : State) (l : Line) (v : Level) :
    ∃ w, (w = s.latch l ∨ w = v) ∧ s.afterFailedCall (.setLine l v) =
      { s.setLatch l w with
        trace := s.trace ++ [.failed (.setLine l v)], calls := s.calls + 1, draws := s.draws + 1 } := by
  refine ⟨if Config.failedLineMoved s.draws then v else s.latch l, ?_, rfl⟩
  split
  · exact .inr rfl
  · exact .inl rfl

/-- A script on a bound block whose first bad verdict falls on a `T.setLine`: all before it is done, and its line is at
the old level or at the one asked for. -/
theorem transact_firstFailure_setLine {script before after : List Action} {l : Line} {v : Level} {s : State}
    (hs : script = before ++ .setLine l v :: after) (hb : s.bound = true)
    (h : s.firstFailure (fallible before) = true) :
    ∃ w, (w = (s.ran before).latch l ∨ w = v) ∧
      transact script s = .next (State.raise (.transport (.setLine l v))
        { (s.ran before).setLatch l w with
          trace := (s.ran before).trace ++ [.failed (.setLine l v)], calls := (s.ran before).calls + 1,
          draws := (s.ran before).draws + 1 }) := by
  obtain ⟨w, hw, heq⟩ := (s.ran before).afterFailedCall_setLine l v
  exact ⟨w, hw, by rw [hs, transact_firstFailure hb h, heq]⟩

/-- Settles O13: the pulse runs whole and ends HIGH. -/
theorem resetSendsOneLowPulse : Obligations.ResetSendsOneLowPulse := by
  unfold Obligations.ResetSendsOneLowPulse
  intro s hb hh
  calc exec .reset s
      = .next (s.ran resetScript).succeed := transact_healthy hb hh
    _ = _ := by rw [State.ran_eq]; rfl

/-- Settles O14: the pulse is cut at its first call, or at its second after the first drove the line LOW. -/
theorem resetStopsAtTheFailingLine : Obligations.ResetStopsAtTheFailingLine := by
  unfold Obligations.ResetStopsAtTheFailingLine
  intro s hb
  have hexec : exec .reset s = transact resetScript s := rfl
  rw [hexec]
  refine ⟨fun h => ?first, fun h => ?second⟩
  case first => exact transact_firstFailure_setLine (script := resetScript) (before := []) rfl hb h
  case second =>
    obtain ⟨v, hv, hstop⟩ := transact_firstFailure_setLine (script := resetScript)
      (before := [.setLine .reset .low, .delay 10]) rfl hb h
    refine ⟨v, hv, hstop.trans ?_⟩
    rw [State.ran_eq, List.append_assoc]
    rfl

end Sys2Proof.Machine

/-! ## Bracketed traces -/

namespace Sys2Proof.Machine

/-- Behind a bracketed trace only what is appended can break the brackets. -/
theorem framed_append {allowed : List Level} {a : List Event} (h : framed allowed a = true) (b : List Event) :
    framed allowed (a ++ b) = framed allowed b := by
  induction a using framed.induct with
  | case1 => rfl
  | case2 v bytes w rest ih =>
    simp only [framed, Bool.and_eq_true] at h
    obtain ⟨hbracket, hrest⟩ := h
    simp only [List.cons_append, framed, hbracket, Bool.and_self, Bool.true_and, ih hrest]
  | case3 v rest ih => exact ih h
  | case4 ms rest ih => exact ih h
  | case5 => simp [framed] at h

theorem framed_mono {few many : List Level} (hsub : few ⊆ many) {ev : List Event} (h : framed few ev = true) :
    framed many ev = true := by
  induction ev using framed.induct with
  | case1 => rfl
  | case2 v bytes w rest ih =>
    simp only [framed, Bool.and_eq_true, List.contains_iff_mem] at h ⊢
    obtain ⟨⟨hv, hw⟩, hrest⟩ := h
    exact ⟨⟨hsub hv, hw⟩, ih hrest⟩
  | case3 v rest ih => exact ih h
  | case4 ms rest ih => exact ih h
  | case5 => simp [framed] at h

theorem framed_flatMap {α : Type} {allowed : List Level} {f : α → List Event} (h : ∀ a, framed allowed (f a) = true)
    (as : List α) : framed allowed (as.flatMap f) = true := by
  induction as with
  | nil => rfl
  | cons a rest ih => rw [List.flatMap_cons, framed_append (h a), ih]

theorem framed_commandEvents (opcode : Byte) (operands : List Byte) :
    framed [.low] (commandEvents opcode operands) = true := rfl

theorem framed_dataEvents (bytes : List Byte) : framed [.high] (dataEvents bytes) = true := rfl

theorem framed_replayEvents (entries : List Config.Entry) : framed [.low] (replayEvents entries) = true :=
  framed_flatMap (fun e : Config.Entry => framed_commandEvents e.1 e.2) entries

theorem framed_flushEvents (m : Memory) : framed [.high] (flushEvents m) = true :=
  framed_flatMap (fun i => framed_dataEvents (packedColumn m i)) _

/-- The delay and the pulse of a bring-up stand outside the brackets of its commands. -/
theorem framed_initialiseScript (p : Params) (m : VccMode) :
    framed [.low] ((initialiseScript p m).map Action.event) = true := by
  have hpulse : framed [.low] (.delay Config.preResetMs :: resetEvents) = true := rfl
  simp only [initialiseScript, List.map_append, List.map_cons, resetScript_events, replayScript_events,
    Action.event, List.append_assoc]
  rw [framed_append hpulse, framed_append (framed_replayEvents _), framed_replayEvents]

/-- Run whole, an instruction brackets each of its bursts with the level of its class (R124). -/
theorem framed_scriptOf (i : Instr) (s : State) :
    framed (opClass i).burstLevels ((scriptOf s i).map Action.event) = true := by
  cases i with
  | construct | setPixel | updateRegion | reset => rfl
  | initialise m => exact framed_initialiseScript s.params m
  | resetAddressWindow =>
    simpa [scriptOf, opClass, OpClass.burstLevels] using framed_replayEvents s.params.windowResetSeq
  | flush => simpa [scriptOf, opClass, OpClass.burstLevels] using framed_flushEvents s.fb
  | sendData | pixPair => exact framed_dataEvents _
  | command | setDisplayPower | wire15 | wire24 | wire75 | wire81 | wireA4 | wireA6 | wireAE | wireAF =>
    exact framed_commandEvents _ _

/-- A script that left no `Failed` event ran whole. -/
theorem settle_trace_of_no_failure {script : List Action} {s : State}
    (h : failedCalls (perform script s).settle.trace = []) :
    (perform script s).settle.trace = s.trace ++ script.map Action.event := by
  rcases settle_cases script s with hran | ⟨before, c, after, -, -, -, hstop⟩
  · rw [hran, State.ran_eq]
    rfl
  · rw [hstop] at h
    simp [State.afterFailedCall, failedCalls] at h

/-- Settles O46: without a `Failed` event an operation appends nothing, or the events of its whole script. -/
theorem everyBurstUnderItsLevel : Obligations.EveryBurstUnderItsLevel := by
  unfold Obligations.EveryBurstUnderItsLevel
  intro i s t h hc hf
  obtain ⟨-, -, ht⟩ | ⟨-, rfl⟩ := exec_quiet_or_script h hc
  · exact ⟨[], by rw [ht]; simp, rfl⟩
  · exact ⟨_, settle_trace_of_no_failure hf, framed_scriptOf i s⟩

theorem level_mem_low_high (v : Level) : v ∈ [Level.low, .high] := by
  cases v <;> decide

/-- Whatever the instruction, a bracketed trace stays one: `construct` empties it or leaves it, and any other operation
appends brackets. -/
theorem exec_keeps_framed {i : Instr} {s t : State} (h : exec i s = .next t)
    (hs : failedCalls s.trace = [] → framed [.low, .high] s.trace = true) (hf : failedCalls t.trace = []) :
    framed [.low, .high] t.trace = true := by
  by_cases hc : opClass i = .constructs
  · obtain ⟨b, d, l, r, -, -, ⟨-, rfl⟩ | ⟨-, rfl⟩⟩ := exec_constructs_next h hc
    · rfl
    · exact hs hf
  · obtain ⟨ev, ht, hev⟩ := everyBurstUnderItsLevel i s t h hc hf
    rw [ht, failedCalls_append, List.append_eq_nil_iff] at hf
    rw [ht, framed_append (hs hf.1)]
    exact framed_mono (fun v _ => level_mem_low_high v) hev

/-- Settles O47: the step is one instruction, and moving the queue on leaves the trace. -/
theorem stepKeepsTheTraceFramed : Obligations.StepKeepsTheTraceFramed := by
  unfold Obligations.StepKeepsTheTraceFramed
  intro s t h hs hf
  obtain ⟨r, rest, i, u, -, -, he, rfl⟩ := step_next h
  rw [State.advance_trace] at hf ⊢
  exact exec_keeps_framed he hs hf

/-! ## One burst in its bracket -/

/-- The three calls of `command` and of `sendData` alike: the bracket of one burst (R120, R121). -/
def burstScript (v : Level) (bytes : List Byte) : List Action :=
  [.setLine .dc v, .write bytes, .setLine .dc v.flip]

theorem exec_command_eq_burst (o : Byte) (p : List Byte) (s : State) :
    exec (.command (byteToInt o) (p.map byteToInt)) s = transact (burstScript .low (o :: p)) s :=
  exec_command_of_bytes o p s

theorem exec_sendData_eq_burst (bs : List Byte) (s : State) :
    exec (.sendData (bs.map byteToInt)) s = transact (burstScript .high bs) s :=
  exec_sendData_of_bytes bs s

theorem transact_burstScript_healthy {v : Level} {bs : List Byte} {s : State} (hb : s.bound = true)
    (h : s.healthy 3 = true) :
    transact (burstScript v bs) s = .next { s with
      trace := s.trace ++ [.setLine .dc v, .write bs, .setLine .dc v.flip], dc := v.flip, calls := s.calls + 3,
      reply := some .success } :=
  calc transact (burstScript v bs) s
      = .next (s.ran (burstScript v bs)).succeed := transact_healthy hb h
    _ = _ := by rw [State.ran_eq]; rfl

/-- Settles O15: a bracket under LOW. -/
theorem commandSendsOneBurstUnderLow : Obligations.CommandSendsOneBurstUnderLow := by
  unfold Obligations.CommandSendsOneBurstUnderLow
  intro s o p hb hh
  exact (exec_command_eq_burst o p s).trans (transact_burstScript_healthy hb hh)

/-- Settles O16: a bracket under HIGH, around an empty burst too (D20). -/
theorem sendDataSendsOneBurstUnderHigh : Obligations.SendDataSendsOneBurstUnderHigh := by
  unfold Obligations.SendDataSendsOneBurstUnderHigh
  intro s bs hb hh
  exact (exec_sendData_eq_burst bs s).trans (transact_burstScript_healthy hb hh)

/-- A script on a bound block whose first bad verdict falls on a `T.writeBytes`: all before it is done, and no latch
moves. -/
theorem transact_firstFailure_write {script before after : List Action} {bytes : List Byte} {s : State}
    (hs : script = before ++ .write bytes :: after) (hb : s.bound = true)
    (h : s.firstFailure (fallible before) = true) :
    transact script s = .next (State.raise (.transport (.write bytes))
      { s.ran before with
        trace := (s.ran before).trace ++ [.failed (.write bytes)], calls := (s.ran before).calls + 1 }) := by
  rw [hs, transact_firstFailure hb h]
  rfl

/-- Settles O18: both operations are a bracket, which is cut at its first, its second or its third call. -/
theorem framingStopsAtTheFailingCall : Obligations.FramingStopsAtTheFailingCall := by
  unfold Obligations.FramingStopsAtTheFailingCall
  intro s i v bs hb hi
  have hexec : exec i s = transact (burstScript v bs) s := by
    obtain ⟨o, p, rfl, rfl, rfl⟩ | ⟨rfl, rfl⟩ := hi
    · exact exec_command_eq_burst o p s
    · exact exec_sendData_eq_burst bs s
  rw [hexec]
  refine ⟨fun h => ?first, fun h => ?second, fun h => ?third⟩
  case first => exact transact_firstFailure_setLine (script := burstScript v bs) (before := []) rfl hb h
  case second =>
    have hstop := transact_firstFailure_write (script := burstScript v bs) (before := [.setLine .dc v]) rfl hb h
    refine hstop.trans ?_
    rw [State.ran_eq, List.append_assoc]
    rfl
  case third =>
    obtain ⟨d, hd, hstop⟩ := transact_firstFailure_setLine (script := burstScript v bs)
      (before := [.setLine .dc v, .write bs]) rfl hb h
    refine ⟨d, hd, hstop.trans ?_⟩
    rw [State.ran_eq, List.append_assoc]
    rfl

/-! ## Values that are no bytes -/

theorem mem_badBytes {v : Int} {vs : List Int} : v ∈ badBytes vs ↔ v ∈ vs ∧ ¬ (0 ≤ v ∧ v ≤ 255) := by
  simp only [badBytes, legalByte, List.mem_filter, ← Bool.decide_and, Bool.not_eq_true', decide_eq_false_iff_not]

/-- The check comes before the script, and the value it records is one of those that offend (R90, R182). -/
theorem frameBytes_of_offender {vs : List Int} (h : ∃ v ∈ vs, ¬ (0 ≤ v ∧ v ≤ 255)) (op : HostOp)
    (script : List Action) (s : State) :
    ∃ v ∈ vs, ¬ (0 ≤ v ∧ v ≤ 255) ∧ frameBytes op vs script s = { s with
      faults := s.faults ++ [.contractByte op v], reply := some (.error .contract), draws := s.draws + 1 } := by
  obtain ⟨w, hw, hbad⟩ := h
  have hmem : w ∈ badBytes vs := mem_badBytes.2 ⟨hw, hbad⟩
  unfold frameBytes
  split
  · next hnil => simp [hnil] at hmem
  · next v rest hcons =>
    have hpick := pick_mem (Config.offenderDraw s.draws) v rest
    rw [← hcons] at hpick
    obtain ⟨hin, hno⟩ := mem_badBytes.1 hpick
    exact ⟨_, hin, hno, rfl⟩

/-- Settles O17: both operations check their values before anything else. -/
theorem nonBytesRaiseContractViolation : Obligations.NonBytesRaiseContractViolation := by
  unfold Obligations.NonBytesRaiseContractViolation
  intro s i op vs hb hi hv
  have hexec : ∃ script, exec i s = .next (frameBytes op vs script s) := by
    obtain ⟨o, p, rfl, rfl, rfl⟩ | ⟨rfl, rfl⟩ := hi <;> exact ⟨_, onBound_eq hb _⟩
  obtain ⟨script, hrun⟩ := hexec
  obtain ⟨v, hin, hno, hraise⟩ := frameBytes_of_offender hv op script s
  exact ⟨v, hin, hno, by rw [hrun, hraise]⟩

end Sys2Proof.Machine

/-! ## Bring-up, display power and the address window -/

namespace Sys2Proof.Machine

/-- A script that runs whole on a bound block, field by field. -/
theorem transact_healthy_fields {script : List Action} {s : State} (hb : s.bound = true)
    (h : s.healthy (fallible script) = true) :
    transact script s = .next { s with
      trace := s.trace ++ script.map Action.event, dc := finalLevel .dc s.dc script,
      rst := finalLevel .reset s.rst script, calls := s.calls + fallible script, reply := some .success } := by
  rw [transact_healthy hb h, State.ran_eq, State.succeed]

/-! ### The script of a bring-up (R130, R136) -/

theorem fallible_initialiseScript (p : Params) (m : VccMode) :
    fallible (initialiseScript p m) = 2 + 3 * ((p.initTable m).entries.length + p.windowResetSeq.length) := by
  simp only [initialiseScript, List.cons_append, fallible, fallible_append, fallible_resetScript,
    fallible_replayScript]
  omega

theorem initialiseScript_events (p : Params) (m : VccMode) :
    (initialiseScript p m).map Action.event =
      [.delay 1, .setLine .reset .low, .delay 10, .setLine .reset .high] ++
        replayEvents (p.initTable m).entries ++ replayEvents p.windowResetSeq := by
  simp only [initialiseScript, List.map_append, replayScript_events]
  rfl

/-- A table has a first entry, so its replay drives D/C HIGH whatever the window sequence is (R7, R38). -/
theorem finalLevel_dc_initialiseScript (v : Level) (p : Params) (m : VccMode) :
    finalLevel .dc v (initialiseScript p m) = .high := by
  have htable : (p.initTable m).entries ≠ [] := List.cons_ne_nil _ _
  simp only [initialiseScript, finalLevel_append, finalLevel_dc_replayScript, if_neg htable, ite_self]

/-- The pulse leaves the reset line HIGH, and no `command` drives it (R111). -/
theorem finalLevel_reset_initialiseScript (v : Level) (p : Params) (m : VccMode) :
    finalLevel .reset v (initialiseScript p m) = .high := by
  simp only [initialiseScript, finalLevel_append, finalLevel_reset_replayScript]
  rfl

/-! ### The bytes of a replay -/

@[simp] theorem writes_append (a b : List Event) : writes (a ++ b) = writes a ++ writes b := by
  induction a with
  | nil => rfl
  | cons e rest ih => cases e <;> simp [writes, ih]

/-- Each entry is one burst: its opcode and its operands (R136). -/
theorem flatten_writes_replayEvents (entries : List Config.Entry) :
    (writes (replayEvents entries)).flatten = replayBytes entries := by
  induction entries with
  | nil => rfl
  | cons e rest ih =>
    have hevents : replayEvents (e :: rest) = commandEvents e.1 e.2 ++ replayEvents rest := rfl
    have hbytes : replayBytes (e :: rest) = (e.1 :: e.2) ++ replayBytes rest := rfl
    have hburst : (writes (commandEvents e.1 e.2)).flatten = e.1 :: e.2 := by simp [commandEvents, writes]
    rw [hevents, hbytes, writes_append, List.flatten_append, hburst, ih]

/-- Settles O19: the script of R130 runs whole, and only its replays put bytes on the wire. -/
theorem initialiseReplaysTableThenWindow : Obligations.InitialiseReplaysTableThenWindow := by
  unfold Obligations.InitialiseReplaysTableThenWindow
  intro s m hb hh
  have hrun : exec (.initialise m) s = _ :=
    transact_healthy_fields (script := initialiseScript s.params m) hb (by rwa [fallible_initialiseScript])
  rw [initialiseScript_events, finalLevel_dc_initialiseScript, finalLevel_reset_initialiseScript,
    fallible_initialiseScript] at hrun
  refine ⟨_, hrun, rfl, ?_⟩
  simp only [writes_append, List.flatten_append, flatten_writes_replayEvents]
  rfl

/-- Settles O21: the replay of the sequence drives D/C only, and two entries unfold to six events. -/
theorem resetAddressWindowReplaysItsSequence : Obligations.ResetAddressWindowReplaysItsSequence := by
  unfold Obligations.ResetAddressWindowReplaysItsSequence
  intro s hb hh
  refine ⟨?run, fun hseq => ?events⟩
  case run =>
    have hrun : exec .resetAddressWindow s = _ :=
      transact_healthy_fields (script := replayScript s.params.windowResetSeq) hb (by rwa [fallible_replayScript])
    rwa [replayScript_events, finalLevel_dc_replayScript, finalLevel_reset_replayScript,
      fallible_replayScript] at hrun
  case events =>
    rw [hseq]
    rfl

/-- Settles O20: a bracket under LOW around the one byte of `displayPowerOpcode`. -/
theorem setDisplayPowerSendsA4OrA6 : Obligations.SetDisplayPowerSendsA4OrA6 := by
  unfold Obligations.SetDisplayPowerSendsA4OrA6
  intro s on hb hh
  exact transact_burstScript_healthy (v := .low) (bs := [displayPowerOpcode on]) hb hh

end Sys2Proof.Machine

/-! ## Cells, runs and read-back -/

namespace Sys2Proof.Machine

/-! ### Ranges and intensities -/

/-- The range of a run (R141). -/
theorem runFits_iff {x y : Int} {n : Nat} : runFits x y n = true ↔ 0 ≤ x ∧ x + n ≤ 128 ∧ 0 ≤ y ∧ y < 64 := by
  simp [runFits, and_assoc]

/-- The range of a pixel (R140). -/
theorem inFramebuffer_iff {x y : Int} : inFramebuffer x y = true ↔ 0 ≤ x ∧ x < 128 ∧ 0 ≤ y ∧ y < 64 := by
  simp [inFramebuffer, and_assoc]

/-- The store value as a number: the remainder of 0..15, of a negative intensity too (R142). -/
theorem toNat_storeValue (v : Int) : ((storeValue v).toNat : Int) = v % 16 := by
  have hsmall : (v % 16).toNat < 2 ^ 4 := by omega
  rw [storeValue, BitVec.toNat_ofNat, Nat.mod_eq_of_lt hsmall]
  omega

theorem mem_badIntensities_reject {v : Int} {vs : List Int} :
    v ∈ badIntensities .reject vs ↔ v ∈ vs ∧ ¬ (0 ≤ v ∧ v ≤ 15) := by
  simp only [badIntensities, legalIntensity, List.mem_filter, ← Bool.decide_and, Bool.not_eq_true',
    decide_eq_false_iff_not]

/-- What the policy admits: everything under `MASK`, 0..15 under `REJECT` (R142). -/
theorem badIntensities_eq_nil {policy : Config.IntensityPolicy} {vs : List Int}
    (h : policy = .mask ∨ ∀ v ∈ vs, 0 ≤ v ∧ v ≤ 15) : badIntensities policy vs = [] := by
  cases policy with
  | mask => rfl
  | reject =>
    have hlegal : ∀ v ∈ vs, 0 ≤ v ∧ v ≤ 15 := h.resolve_left (by decide)
    refine List.eq_nil_iff_forall_not_mem.2 fun v hv => ?_
    obtain ⟨hin, hno⟩ := mem_badIntensities_reject.1 hv
    exact hno (hlegal v hin)

/-! ### Reading a stored run -/

theorem Memory.read_writeRun_inside (m : Memory) (x y : Nat) {vs : List Nibble} {k : Nat} (h : k < vs.length) :
    (m.writeRun x y vs).read (x + k) y = vs[k] := by
  have hin : y = y ∧ x ≤ x + k ∧ x + k < x + vs.length := by omega
  simp [Memory.read_writeRun, hin, h]

theorem Memory.read_writeRun_outside (m : Memory) {x y a b : Nat} {vs : List Nibble}
    (h : ¬ (b = y ∧ x ≤ a ∧ a < x + vs.length)) : (m.writeRun x y vs).read a b = m.read a b := by
  rw [Memory.read_writeRun, if_neg h]

/-! ### The run both stores end in -/

theorem storeRun_of_no_badIntensities {vs : List Int} {s : State}
    (h : badIntensities s.params.intensityPolicy vs = []) (op : HostOp) (x y : Int) :
    storeRun op x y vs s = State.succeed { s with fb := s.fb.writeRun x.toNat y.toNat (vs.map storeValue) } := by
  simp only [storeRun, h]

/-- An admitted run writes its cells and the reply, and nothing else (R141, R142). -/
theorem storeRun_of_admitted {vs : List Int} {s : State}
    (h : s.params.intensityPolicy = .mask ∨ ∀ v ∈ vs, 0 ≤ v ∧ v ≤ 15) (op : HostOp) (x y : Nat) :
    (∀ k (hk : k < vs.length), (((storeRun op x y vs s).fb.read (x + k) y).toNat : Int) = vs[k] % 16) ∧
    (∀ a b, ¬ (b = y ∧ x ≤ a ∧ a < x + vs.length) → (storeRun op x y vs s).fb.read a b = s.fb.read a b) ∧
    storeRun op x y vs s = { s with fb := (storeRun op x y vs s).fb, reply := some .success } := by
  rw [storeRun_of_no_badIntensities (badIntensities_eq_nil h)]
  refine ⟨fun k hk => ?inside, fun a b hab => ?outside, rfl⟩
  case inside =>
    simp [Memory.read_writeRun_inside, hk, toNat_storeValue]
  case outside =>
    exact s.fb.read_writeRun_outside (by simpa using hab)

/-- The check comes before the store, and the value it records is one of those that offend (R142). -/
theorem storeRun_of_offender {vs : List Int} {s : State} (hp : s.params.intensityPolicy = .reject)
    (h : ∃ v ∈ vs, ¬ (0 ≤ v ∧ v ≤ 15)) (op : HostOp) (x y : Int) :
    ∃ v ∈ vs, ¬ (0 ≤ v ∧ v ≤ 15) ∧ storeRun op x y vs s = { s with
      faults := s.faults ++ [.contractIntensity op v], reply := some (.error .contract), draws := s.draws + 1 } := by
  obtain ⟨w, hw, hbad⟩ := h
  have hmem : w ∈ badIntensities .reject vs := mem_badIntensities_reject.2 ⟨hw, hbad⟩
  unfold storeRun
  rw [hp]
  split
  · next hnil => simp [hnil] at hmem
  · next v rest hcons =>
    have hpick := pick_mem (Config.offenderDraw s.draws) v rest
    rw [← hcons] at hpick
    obtain ⟨hin, hno⟩ := mem_badIntensities_reject.1 hpick
    exact ⟨_, hin, hno, rfl⟩

/-! ### The two stores -/

theorem exec_setPixel_of_inRange {s : State} {x y : Int} (hb : s.bound = true)
    (h : 0 ≤ x ∧ x < 128 ∧ 0 ≤ y ∧ y < 64) (v : Int) :
    exec (.setPixel x y v) s = .next (storeRun .setPixel x y [v] s) := by
  rw [exec_on_bound hb (by simp [opClass]), bodyOf, if_pos (inFramebuffer_iff.2 h)]

theorem exec_updateRegion_of_fits {s : State} {x y : Int} {vs : List Int} (hb : s.bound = true)
    (h : 0 ≤ x ∧ x + vs.length ≤ 128 ∧ 0 ≤ y ∧ y < 64) :
    exec (.updateRegion x y vs) s = .next (storeRun .updateRegion x y vs s) := by
  rw [exec_on_bound hb (by simp [opClass]), bodyOf, if_pos (runFits_iff.2 h)]

/-- Settles O22: a pixel is an admitted run of one cell. -/
theorem setPixelStoresOneCell : Obligations.SetPixelStoresOneCell := by
  unfold Obligations.SetPixelStoresOneCell
  intro s x y v hb hx hy hv
  obtain ⟨hin, hout, hframe⟩ := storeRun_of_admitted (vs := [v]) (by simpa using hv) .setPixel x y
  refine ⟨_, exec_setPixel_of_inRange hb (by omega) v, hin 0 (by simp), fun a b hab => hout a b ?_, hframe⟩
  rintro ⟨rfl, hlo, hhi⟩
  simp only [List.length_singleton] at hhi
  exact hab (Prod.ext (by omega) rfl)

/-- Settles O23: a run that fits is stored as `storeRun` says. -/
theorem updateRegionStoresOneRun : Obligations.UpdateRegionStoresOneRun := by
  unfold Obligations.UpdateRegionStoresOneRun
  intro s x y vs hb hx hy hv
  exact ⟨_, exec_updateRegion_of_fits hb (by omega), storeRun_of_admitted hv .updateRegion x y⟩

/-- Settles O25: the coordinates are checked before the intensities are looked at (R182). -/
theorem outOfRangeStoresRaiseBoundsError : Obligations.OutOfRangeStoresRaiseBoundsError := by
  unfold Obligations.OutOfRangeStoresRaiseBoundsError
  refine ⟨fun s x y v hb h => ?pixel, fun s x y vs hb h => ?region⟩
  case pixel =>
    rw [exec_on_bound hb (by simp [opClass]), bodyOf, if_neg (inFramebuffer_iff.not.2 h)]
    rfl
  case region =>
    rw [exec_on_bound hb (by simp [opClass]), bodyOf, if_neg (runFits_iff.not.2 h)]
    rfl

/-- Settles O26: in range, both stores are a `storeRun`, which checks its values before it stores any. -/
theorem rejectedIntensitiesRaiseContractViolation : Obligations.RejectedIntensitiesRaiseContractViolation := by
  unfold Obligations.RejectedIntensitiesRaiseContractViolation
  intro s i op vs hb hp hi hv
  have hexec : ∃ x y, exec i s = .next (storeRun op x y vs s) := by
    obtain ⟨x, y, v, hx0, hx, hy0, hy, rfl, rfl, rfl⟩ | ⟨x, y, hx0, hx, hy0, hy, rfl, rfl⟩ := hi
    · exact ⟨x, y, exec_setPixel_of_inRange hb ⟨hx0, hx, hy0, hy⟩ v⟩
    · exact ⟨x, y, exec_updateRegion_of_fits hb ⟨hx0, hx, hy0, hy⟩⟩
  obtain ⟨x, y, hrun⟩ := hexec
  obtain ⟨v, hin, hno, hraise⟩ := storeRun_of_offender hp hv op x y
  exact ⟨v, hin, hno, by rw [hrun, hraise]⟩

/-! ### What a successful store did -/

/-- A store that returns success had a run that fits, and wrote it. -/
theorem exec_stores_success {i : Instr} {s t : State} (h : exec i s = .next t) (hc : opClass i = .stores)
    (hr : t.reply = some .success) :
    ∃ x y vs, (i = .updateRegion x y vs ∨ ∃ v, i = .setPixel x y v ∧ vs = [v]) ∧ t.bound = true ∧
      (0 ≤ x ∧ x + vs.length ≤ 128 ∧ 0 ≤ y ∧ y < 64) ∧
      t.fb = s.fb.writeRun x.toNat y.toNat (vs.map storeValue) := by
  cases exec_next h with
  | constructed | notBindable | flushed => cases hc
  | stored _ x y vs hb hi hfit _ => exact ⟨x, y, vs, hi, hb, runFits_iff.1 hfit, rfl⟩
  | outOfRange | rejected | notBytes => cases hr
  | transported _ _ _ hs => exact absurd hc hs

theorem exec_updateRegion_success {s t : State} {x y : Int} {vs : List Int}
    (h : exec (.updateRegion x y vs) s = .next t) (hr : t.reply = some .success) :
    (0 ≤ x ∧ x + vs.length ≤ 128 ∧ 0 ≤ y ∧ y < 64) ∧
      t.fb = s.fb.writeRun x.toNat y.toNat (vs.map storeValue) := by
  obtain ⟨_, _, _, hi | ⟨_, hi, -⟩, -, hfit, hfb⟩ := exec_stores_success h rfl hr <;> cases hi
  exact ⟨hfit, hfb⟩

theorem exec_setPixel_success {s t : State} {x y v : Int} (h : exec (.setPixel x y v) s = .next t)
    (hr : t.reply = some .success) :
    t.bound = true ∧ (0 ≤ x ∧ x < 128 ∧ 0 ≤ y ∧ y < 64) ∧
      t.fb = s.fb.write x.toNat y.toNat (storeValue v) := by
  obtain ⟨_, _, _, hi | ⟨_, hi, rfl⟩, hb, hfit, hfb⟩ := exec_stores_success h rfl hr <;> cases hi
  simp only [List.length_singleton] at hfit
  exact ⟨hb, by omega, hfb⟩

/-- Settles O24: a read inside the run gives its element, and one outside what it gave before. -/
theorem updateRegionNeverWraps : Obligations.UpdateRegionNeverWraps := by
  unfold Obligations.UpdateRegionNeverWraps
  intro s t sx sy vs h hr x y
  obtain ⟨⟨hx, -, hy, -⟩, hfb⟩ := exec_updateRegion_success h hr
  lift sx to Nat using hx
  lift sy to Nat using hy
  rw [hfb, Int.toNat_natCast, Int.toNat_natCast]
  refine ⟨fun hchanged => ?changed, fun k hk hrow hcol => ?stored⟩
  case changed =>
    by_contra hout
    refine hchanged (s.fb.read_writeRun_outside ?_)
    rw [List.length_map]
    omega
  case stored =>
    obtain rfl : y = sy := by omega
    obtain rfl : x = sx + k := by omega
    rw [Memory.read_writeRun_inside _ _ _ (by simpa using hk), List.getElem_map]

/-! ### Read-back -/

theorem readBack_of_inRange {s : State} {x y : Int} (hb : s.bound = true)
    (h : 0 ≤ x ∧ x < 128 ∧ 0 ≤ y ∧ y < 64) : readBack s x y = .value (s.fb.read x.toNat y.toNat) := by
  rw [readBack, if_pos hb, if_pos (inFramebuffer_iff.2 h)]

/-- Settles O28: a read-back is the cell or a bounds violation, and `setPixel` wrote the cell. -/
theorem readBackSeesTheLastStore : Obligations.ReadBackSeesTheLastStore := by
  unfold Obligations.ReadBackSeesTheLastStore
  refine ⟨fun s t x y v h hr => ?last, fun s x y hb hx hy => ?cell, fun s x y hb h => ?outside⟩
  case last =>
    obtain ⟨hb, hin, hfb⟩ := exec_setPixel_success h hr
    rw [readBack_of_inRange hb hin, hfb, Memory.read_write, if_pos rfl]
  case cell => exact readBack_of_inRange hb (by omega)
  case outside => rw [readBack, if_pos hb, if_neg (inFramebuffer_iff.not.2 h)]

end Sys2Proof.Machine

/-! ## The packing engine -/

namespace Sys2Proof

/-- Both fields of a packed byte read back, so the byte determines the pair (R155 (4)). -/
theorem pack_injective {a b c d : Nibble} (h : pack a b = pack c d) : a = c ∧ b = d := by
  have hhigh := congrArg highNibble h
  have hlow := congrArg lowNibble h
  rw [highNibble_pack, highNibble_pack] at hhigh
  rw [lowNibble_pack, lowNibble_pack] at hlow
  exact ⟨hhigh, hlow⟩

/-- Settles O6: the fields of `pack` read back, its value is `16a + b`, and the corners are evaluated. -/
theorem packIsInjectiveAndFieldwise : Obligations.PackIsInjectiveAndFieldwise := by
  unfold Obligations.PackIsInjectiveAndFieldwise
  exact ⟨fun a b => ⟨highNibble_pack a b, lowNibble_pack a b, toNat_pack a b⟩, fun _ _ _ _ => pack_injective,
    rfl, rfl, rfl, rfl⟩

end Sys2Proof

namespace Sys2Proof.Machine

/-! ### The columns and their bytes (R151, R152) -/

@[simp] theorem length_packAll (m : Memory) : (packAll m).length = 64 := by
  simp [packAll, Config.packedCols]

theorem getElem?_packAll (m : Memory) {i : Nat} (h : i < 64) : (packAll m)[i]? = some (packedColumn m i) := by
  simp [packAll, Config.packedCols, h]

theorem take_packAll (m : Memory) {j : Nat} (h : j ≤ 64) :
    (packAll m).take j = (List.range j).map (packedColumn m) := by
  simp [packAll, Config.packedCols, ← List.map_take, List.take_range, h]

@[simp] theorem length_packedColumn (m : Memory) (i : Nat) : (packedColumn m i).length = 64 := by
  simp [packedColumn, Config.rows]

theorem getElem?_packedColumn (m : Memory) (i : Nat) {y : Nat} (h : y < 64) :
    (packedColumn m i)[y]? = some (packedByte m i y) := by
  simp [packedColumn, Config.rows, h]

/-- The unpacking law (R157). -/
theorem read_eq_nibble_packedByte (m : Memory) (x y : Nat) :
    m.read x y =
      if x % 2 = 0 then highNibble (packedByte m (x / 2) y) else lowNibble (packedByte m (x / 2) y) := by
  split
  · next heven => rw [packedByte, highNibble_pack, show 2 * (x / 2) = x by omega]
  · next hodd => rw [packedByte, lowNibble_pack, show 2 * (x / 2) + 1 = x by omega]

/-! ### Readings of a row of data bursts -/

theorem writes_flatMap_dataEvents (columns : List (List Byte)) : writes (columns.flatMap dataEvents) = columns := by
  induction columns with
  | nil => rfl
  | cons b rest ih => exact congrArg (b :: ·) ih

theorem lineEvents_flatMap_dataEvents (columns : List (List Byte)) :
    lineEvents (columns.flatMap dataEvents) =
      (List.replicate columns.length [(Line.dc, Level.high), (Line.dc, Level.low)]).flatten := by
  induction columns with
  | nil => rfl
  | cons b rest ih => exact congrArg ((Line.dc, Level.high) :: (Line.dc, Level.low) :: ·) ih

theorem delays_flatMap_dataEvents (columns : List (List Byte)) : delays (columns.flatMap dataEvents) = [] := by
  induction columns with
  | nil => rfl
  | cons b rest ih => exact ih

theorem failedCalls_flatMap_dataEvents (columns : List (List Byte)) :
    failedCalls (columns.flatMap dataEvents) = [] := by
  induction columns with
  | nil => rfl
  | cons b rest ih => exact ih

/-- The events of a flush are one data burst for each packed column (R152). -/
theorem flushEvents_eq (m : Memory) : flushEvents m = (packAll m).flatMap dataEvents := by
  rw [packAll, List.flatMap_map]
  rfl

/-! ### A flush that succeeds -/

theorem exec_flush_of_bound {s : State} (hb : s.bound = true) :
    exec .flush s = .next { (perform (flushScript (packAll s.fb)) s).settle with packed := none } := by
  rw [exec_on_bound hb (by decide), bodyOf, flushBody_eq, scriptOf]

/-- Settles O29: the script runs whole, and its events are those of R150. -/
theorem flushSendsSixtyFourColumns : Obligations.FlushSendsSixtyFourColumns := by
  unfold Obligations.FlushSendsSixtyFourColumns
  intro s hb hh
  rw [exec_flush_of_bound hb, perform_healthy (fallible_flushScript s.fb).le hh, Attempt.settle_done, State.ran_eq,
    flushScript_events, finalLevel_dc_flushScript, finalLevel_reset_flushScript, fallible_flushScript]
  rfl

/-- What a successful flush shows outside (R150, R153). -/
theorem exec_flush_success {s t : State} (h : exec .flush s = .next t) (hr : t.reply = some .success) :
    t.trace = s.trace ++ flushEvents s.fb ∧ t.dc = .low := by
  simpa [scriptOf] using success_runs_script h hr (by decide)

/-- Settles O30: the bursts of a flush are the packed columns, and each nibble of their bytes is a cell. -/
theorem flushUnpacksToTheFramebuffer : Obligations.FlushUnpacksToTheFramebuffer := by
  unfold Obligations.FlushUnpacksToTheFramebuffer
  intro s t h hr
  refine ⟨_, (exec_flush_success h hr).1, ?_⟩
  rw [flushEvents_eq, writes_flatMap_dataEvents]
  exact ⟨length_packAll s.fb, fun x y hx hy => ⟨_, _, getElem?_packAll s.fb (by omega),
    getElem?_packedColumn s.fb _ hy, read_eq_nibble_packedByte s.fb x y⟩⟩

/-- Settles O31: the events of a flush are 64 data bursts of 64 bytes. -/
theorem flushTotals : Obligations.FlushTotals := by
  unfold Obligations.FlushTotals
  intro s t h hr
  have hcolumn : ∀ b ∈ packAll s.fb, b.length = 64 := by simp [packAll]
  have hbytes : (packAll s.fb).flatten.length = 4096 := by
    rw [List.length_flatten, List.map_congr_left hcolumn]
    simp
  refine ⟨_, (exec_flush_success h hr).1, ?_⟩
  rw [flushEvents_eq, writes_flatMap_dataEvents, lineEvents_flatMap_dataEvents, length_packAll]
  exact ⟨rfl, hcolumn, hbytes, rfl, delays_flatMap_dataEvents _, failedCalls_flatMap_dataEvents _⟩

/-- Wherever a flush stops, it wrote no cell, kept the handle and stayed off the reset line (R153). -/
theorem exec_flush_frame {s t : State} (h : exec .flush s = .next t) :
    t.fb = s.fb ∧ t.rst = s.rst ∧ t.handle = s.handle := by
  obtain ⟨-, rfl⟩ := exec_body h (by decide)
  obtain ⟨ev, dc, rst, faults, reply, calls, draws, heq, -, hrst⟩ := settle_frame (scriptOf s .flush) s
  rw [bodyOf, flushBody_eq, heq]
  exact ⟨rfl, hrst (not_drives_reset_scriptOf s (by decide)), rfl⟩

/-- Settles O32: the frame of a flush, and its events as those of the one framebuffer. -/
theorem flushIsIdempotent : Obligations.FlushIsIdempotent := by
  unfold Obligations.FlushIsIdempotent
  refine ⟨fun s t h => exec_flush_frame h, fun s t s' t' h hr h' hr' hfb => ?_⟩
  obtain ⟨htrace, hdc⟩ := exec_flush_success h hr
  obtain ⟨htrace', hdc'⟩ := exec_flush_success h' hr'
  rw [hfb] at htrace'
  exact ⟨hdc, hdc', _, htrace, htrace'⟩

/-! ### A flush that is cut short (R127, R158) -/

/-- The free values a failed call draws: one for the level of its line, none for a burst (R11). -/
def Call.failureDraws : Call → Nat
  | .setLine _ _ => 1
  | .write _ => 0

theorem State.afterFailedCall_draws (s : State) (c : Call) :
    (s.afterFailedCall c).draws = s.draws + c.failureDraws := by
  cases c <;> rfl

/-- A flush whose first bad verdict falls on its call `c`: all before it is done, and the reset line is untouched. -/
theorem exec_flush_firstFailure {s : State} {before after : List Action} {c : Call}
    (hs : flushScript (packAll s.fb) = before ++ .call c :: after) (hb : s.bound = true)
    (h : s.firstFailure (fallible before) = true) :
    ∃ d, (d = finalLevel .dc s.dc before ∨ c = .setLine .dc d) ∧
      exec .flush s = .next { s with
        trace := s.trace ++ (before.map Action.event ++ [.failed c]), dc := d, packed := none,
        faults := s.faults ++ [.transport c], reply := some (.error .transport),
        calls := s.calls + (fallible before + 1), draws := s.draws + c.failureDraws } := by
  obtain ⟨d, rst, draws, heq, hd, hrst⟩ := (s.ran before).afterFailedCall_eq c
  have hdraws : draws = s.draws + c.failureDraws :=
    calc draws = ((s.ran before).afterFailedCall c).draws := (congrArg State.draws heq).symm
      _ = _ := by rw [State.afterFailedCall_draws, State.ran_eq]
  have hdrives : ¬ Drives .reset (before ++ .call c :: after) := by
    rw [← hs]
    exact not_drives_reset_scriptOf (i := .flush) s (by decide)
  rw [State.ran_eq] at heq hd hrst
  have hreset : rst = s.rst := failedLevel_of_not_drives hdrives hrst
  refine ⟨d, hd, ?_⟩
  rw [exec_flush_of_bound hb, hs, perform_firstFailure h, Attempt.settle_raised, State.ran_eq, heq, hdraws, hreset,
    ← List.append_assoc, ← Nat.add_assoc]
  rfl

theorem flushScript_events_eq (p : Packed) : (flushScript p).map Action.event = p.flatMap dataEvents := by
  simp [flushScript, List.map_flatMap]

/-- The bursts before burst `j`, burst `j`, and the bursts after it. -/
theorem flushScript_split {p : Packed} {j : Nat} {b : List Byte} (h : p[j]? = some b) :
    flushScript p = flushScript (p.take j) ++ (dataScript b ++ flushScript (p.drop (j + 1))) := by
  obtain ⟨hj, rfl⟩ := List.getElem?_eq_some_iff.1 h
  calc flushScript p
      = flushScript (p.take j ++ p[j] :: p.drop (j + 1)) := by
        rw [← List.drop_eq_getElem_cons hj, List.take_append_drop]
    _ = _ := by rw [flushScript, List.flatMap_append, List.flatMap_cons]; rfl

/-- Call `k` of a data burst, and the calls before it. -/
theorem dataScript_split (bytes : List Byte) {k : Nat} (hk : k < 3) :
    ∃ c rest, [Call.setLine .dc .high, .write bytes, .setLine .dc .low][k]? = some c ∧
      dataScript bytes = (dataScript bytes).take k ++ .call c :: rest ∧
      fallible ((dataScript bytes).take k) = k ∧ c.failureDraws = if k = 1 then 0 else 1 := by
  match k, hk with
  | 0, _ | 1, _ | 2, _ => exact ⟨_, _, rfl, rfl, rfl, rfl⟩

/-- Settles O33: the script is cut at its call `3j + k`, behind `j` whole bursts and `k` calls of burst `j`. -/
theorem flushStopsAtTheFailingBurst : Obligations.FlushStopsAtTheFailingBurst := by
  unfold Obligations.FlushStopsAtTheFailingBurst
  intro s j k hb hj hk h
  obtain ⟨c, rest, hc, hsplit, hcount, hdraws⟩ := dataScript_split (packedColumn s.fb j) hk
  have hscript := flushScript_split (getElem?_packAll s.fb hj)
  rw [hsplit, take_packAll s.fb hj.le, List.append_assoc, List.cons_append, ← List.append_assoc] at hscript
  have hcalls : fallible (flushScript ((List.range j).map (packedColumn s.fb)) ++
      (dataScript (packedColumn s.fb j)).take k) = 3 * j + k := by
    rw [fallible_append, flushScript, fallible_flatMap_dataScript, hcount, List.length_map, List.length_range]
  obtain ⟨d, hd, hrun⟩ := exec_flush_firstFailure hscript hb (by rwa [hcalls])
  refine ⟨c, d, hc, ?first, ?second, ?run⟩
  case first =>
    rintro rfl
    obtain rfl : Call.setLine .dc .high = c := Option.some.inj hc
    obtain hd | hd := hd
    · right
      simpa [flushScript, finalLevel_dc_flatMap_dataScript] using hd
    · left
      cases hd
      rfl
  case second =>
    rintro rfl
    obtain rfl : Call.write (packedColumn s.fb j) = c := Option.some.inj hc
    obtain hd | hd := hd
    · rw [hd, finalLevel_append]
      rfl
    · cases hd
  case run =>
    rw [hrun, hcalls, hdraws, List.map_append, flushScript_events_eq, List.flatMap_map, List.map_take,
      dataScript_events]

end Sys2Proof.Machine

/-! ## The rows of the wire layer -/

namespace Sys2Proof.Machine

/-- The eight named opcodes of R160 to R167 with the operand bytes `p`: the row and the byte its burst begins with. -/
def wireRows (p : List Byte) : List (Instr × Byte) :=
  [(.wire15 p, 0x15), (.wire24 p, 0x24), (.wire75 p, 0x75), (.wire81 p, 0x81),
    (.wireA4 p, 0xA4), (.wireA6 p, 0xA6), (.wireAE p, 0xAE), (.wireAF p, 0xAF)]

/-- Each row runs the script that `command` runs on its opcode. -/
theorem exec_eq_command_of_mem_wireRows {p : List Byte} {i : Instr} {o : Byte} (h : (i, o) ∈ wireRows p) (s : State) :
    exec i s = exec (.command (byteToInt o) (p.map byteToInt)) s := by
  have hrows : ∀ r ∈ wireRows p, exec r.1 s = transact (commandScript r.2 p) s := by
    simp only [wireRows, List.forall_mem_cons]
    exact ⟨rfl, rfl, rfl, rfl, rfl, rfl, rfl, rfl, List.forall_mem_nil _⟩
  exact (hrows _ h).trans (exec_command_of_bytes o p s).symm

theorem exec_pixPair_eq_sendData (a b : Nibble) (s : State) :
    exec (.pixPair a b) s = exec (.sendData [byteToInt (pack a b)]) s :=
  (exec_sendData_of_bytes [pack a b] s).symm

/-- Settles O36: a wire row runs the script of the call, whose bytes pass the check of R90. -/
theorem wireRowsAreCommandOrSendData : Obligations.WireRowsAreCommandOrSendData := by
  unfold Obligations.WireRowsAreCommandOrSendData
  exact ⟨fun s p i o h => exec_eq_command_of_mem_wireRows h s, fun s a b => exec_pixPair_eq_sendData a b s⟩

/-- Settles O34: a wire row is a `command`, and that sends one bracket under LOW. -/
theorem wireOpcodesSendTheirBurst : Obligations.WireOpcodesSendTheirBurst := by
  unfold Obligations.WireOpcodesSendTheirBurst
  intro s p i o hb hh h
  exact (exec_eq_command_of_mem_wireRows h s).trans (commandSendsOneBurstUnderLow s o p hb hh)

end Sys2Proof.Machine

/-! ## Errors and verdicts -/

namespace Sys2Proof.Machine

/-! ### The matrix of R179 -/

theorem canRaise_transport {i : Instr} (hc : opClass i ≠ .constructs) (hs : opClass i ≠ .stores)
    (policy : Config.IntensityPolicy) : canRaise i policy .transport = true := by
  simp [canRaise, hc, hs]

theorem canRaise_bounds {i : Instr} (hs : opClass i = .stores) (policy : Config.IntensityPolicy) :
    canRaise i policy .bounds = true :=
  decide_eq_true hs

theorem canRaise_contract_of_checksBytes {i : Instr} (hb : checksBytes i = true) (policy : Config.IntensityPolicy) :
    canRaise i policy .contract = true := by
  simp [canRaise, hb]

theorem canRaise_contract_of_reject {i : Instr} {policy : Config.IntensityPolicy} (hs : opClass i = .stores)
    (hp : policy = .reject) : canRaise i policy .contract = true := by
  simp [canRaise, hs, hp]

/-! ### What a request reports -/

/-- A script reports success and records nothing, or it records and reports one `TransportError` (R175). -/
theorem settle_report (script : List Action) (s : State) :
    ((perform script s).settle.reply = some .success ∧ (perform script s).settle.faults = s.faults) ∨
    ∃ c, (perform script s).settle.faults = s.faults ++ [.transport c] ∧
      (perform script s).settle.reply = some (.error .transport) := by
  rcases settle_cases script s with hran | ⟨before, c, after, -, -, -, hstop⟩
  · rw [hran, State.ran_eq]
    exact .inl ⟨rfl, rfl⟩
  · obtain ⟨_, _, _, heq, -, -⟩ := (s.ran before).afterFailedCall_eq c
    rw [hstop, heq, State.ran_eq]
    exact .inr ⟨c, rfl, rfl⟩

/-- Settles O41: each next state of an instruction reports success or the one record it appends, and where the
record comes from, the matrix has its kind. -/
theorem errorsAreRecordedOnceAndByTheMatrix : Obligations.ErrorsAreRecordedOnceAndByTheMatrix := by
  unfold Obligations.ErrorsAreRecordedOnceAndByTheMatrix
  intro i s t h
  cases exec_next h with
  | constructed | stored => exact .inl ⟨rfl, rfl⟩
  | notBindable => exact .inr ⟨_, rfl, rfl, rfl⟩
  | outOfRange _ e _ hs hk => exact .inr ⟨e, rfl, rfl, by rw [hk, canRaise_bounds hs]⟩
  | rejected _ _ _ _ _ hs hp => exact .inr ⟨_, rfl, rfl, canRaise_contract_of_reject hs hp⟩
  | notBytes _ _ _ _ _ hb => exact .inr ⟨_, rfl, rfl, canRaise_contract_of_checksBytes hb _⟩
  | transported _ _ hc hs _ =>
    exact (settle_report _ s).imp_right fun ⟨c, hf, hr⟩ => ⟨.transport c, hf, hr, canRaise_transport hc hs _⟩
  | flushed =>
    rw [flushBody_eq]
    exact (settle_report _ s).imp_right fun ⟨c, hf, hr⟩ => ⟨.transport c, hf, hr, rfl⟩

theorem settle_reply_ne_bounds_or_contract (script : List Action) (s : State) :
    ¬ ((perform script s).settle.reply = some (.error .bounds) ∨
      (perform script s).settle.reply = some (.error .contract)) := by
  obtain ⟨hr, -⟩ | ⟨c, -, hr⟩ := settle_report script s <;> simp [hr]

/-- Settles O42: these errors are raised before the first store and the first transport call, and no script raises
one. -/
theorem boundsAndContractErrorsArePrecise : Obligations.BoundsAndContractErrorsArePrecise := by
  unfold Obligations.BoundsAndContractErrorsArePrecise
  intro i s t h hr
  cases exec_next h with
  | constructed | notBindable | stored => obtain hr | hr := hr <;> cases hr
  | outOfRange | rejected | notBytes => rfl
  | transported => exact absurd hr (settle_reply_ne_bounds_or_contract _ s)
  | flushed =>
    rw [flushBody_eq] at hr
    exact absurd hr (settle_reply_ne_bounds_or_contract _ s)

/-! ### Which verdicts a request met (R178) -/

/-- Every call made between `s` and `u` had the verdict "ok". -/
structure AllOkSince (s u : State) : Prop where
  failAt : u.failAt = s.failAt
  calls_le : s.calls ≤ u.calls
  ok : ∀ n, s.calls ≤ n → n < u.calls → n ∉ s.failAt

/-- Of the calls made between `s` and `t` only the last can have failed, and it did exactly if `t` reports
`TransportError`. -/
def StopsAtFirstFailure (s t : State) : Prop :=
  s.calls ≤ t.calls ∧ (∀ n, s.calls ≤ n → n + 1 < t.calls → n ∉ s.failAt) ∧
    (t.reply = some (.error .transport) ↔ s.calls < t.calls ∧ t.calls - 1 ∈ s.failAt)

theorem AllOkSince.refl (s : State) : AllOkSince s s where
  failAt := rfl
  calls_le := le_rfl
  ok _ hge hlt := absurd hlt hge.not_gt

@[simp] theorem State.afterCall_calls (s : State) (c : Call) : (s.afterCall c).calls = s.calls + 1 := by
  cases c <;> rfl

@[simp] theorem State.afterCall_failAt (s : State) (c : Call) : (s.afterCall c).failAt = s.failAt := by
  cases c <;> rfl

@[simp] theorem State.afterFailedCall_calls (s : State) (c : Call) : (s.afterFailedCall c).calls = s.calls + 1 := by
  cases c <;> rfl

theorem AllOkSince.afterCall {s u : State} (c : Call) (hok : u.callOk = true) (h : AllOkSince s u) :
    AllOkSince s (u.afterCall c) where
  failAt := (u.afterCall_failAt c).trans h.failAt
  calls_le := by
    rw [State.afterCall_calls]
    exact Nat.le_succ_of_le h.calls_le
  ok n hge hlt := by
    rw [State.afterCall_calls] at hlt
    obtain hlt | rfl := Nat.lt_succ_iff_lt_or_eq.1 hlt
    · exact h.ok n hge hlt
    · rw [← h.failAt]
      exact u.callOk_iff.1 hok

/-- Without a failed call there is none to report. -/
theorem AllOkSince.stops {s t : State} (h : AllOkSince s t) (hr : t.reply ≠ some (.error .transport)) :
    StopsAtFirstFailure s t := by
  refine ⟨h.calls_le, fun n hge hlt => h.ok n hge (by omega), iff_of_false hr ?_⟩
  rintro ⟨hlt, hlast⟩
  exact h.ok _ (by omega) (by omega) hlast

/-- The failed call is the last one. -/
theorem AllOkSince.stops_failed {s u : State} (c : Call) (hok : u.callOk = false) (h : AllOkSince s u) :
    StopsAtFirstFailure s ((u.afterFailedCall c).raise (.transport c)) := by
  have hlast : u.calls ∈ s.failAt := by
    rw [← h.failAt]
    simpa [State.callOk] using hok
  have hle := h.calls_le
  rw [StopsAtFirstFailure, State.raise_calls, State.afterFailedCall_calls]
  exact ⟨by omega, fun n hge hlt => h.ok n hge (by omega), iff_of_true rfl ⟨by omega, hlast⟩⟩

theorem settle_stopsAtFirstFailure (script : List Action) (s : State) :
    StopsAtFirstFailure s (perform script s).settle :=
  settle_induction (P := AllOkSince s)
    (delay := fun _ _ h => { h with })
    (ok := fun _ c hok h => h.afterCall c hok)
    (failed := fun _ c hok h => h.stops_failed c hok)
    (done := fun u h => AllOkSince.stops (t := u.succeed) { h with } (by simp))
    script (.refl s)

/-- Settles O43: a script stops at its first bad verdict, and without a script there is no call and no
`TransportError`. -/
theorem transportErrorsFollowTheVerdicts : Obligations.TransportErrorsFollowTheVerdicts := by
  unfold Obligations.TransportErrorsFollowTheVerdicts
  intro i s t h hc
  cases exec_next h with
  | constructed | notBindable => exact absurd rfl hc
  | stored => exact AllOkSince.stops { AllOkSince.refl s with } (by simp)
  | outOfRange _ _ _ _ hk => exact AllOkSince.stops { AllOkSince.refl s with } (by simp [hk])
  | rejected | notBytes => exact AllOkSince.stops { AllOkSince.refl s with } nofun
  | transported => exact settle_stopsAtFirstFailure _ s
  | flushed =>
    rw [flushBody_eq]
    exact settle_stopsAtFirstFailure _ s

end Sys2Proof.Machine
